-- ==== Sys2Proof/Word.lean ====
section
/-!
DEFINITION. The widths SFCORE works with (00_scope R6, 10_state R14 to R19) and nothing else.
-/

namespace Sys2Proof

/-- The 32-bit command word CMD (30_encoding R41). -/
abbrev Command := BitVec 32

/-- An operand or result bus: A, B or R (10_state R14, R15). -/
abbrev Bus := BitVec 256

/-- The machine word of TSF, 64 bits (00_scope R6). -/
abbrev Word64 := BitVec 64

/-- A WideInt128 value, unsigned (40_wideint128 R56). -/
abbrev Wide128 := BitVec 128

/-- The five exception flags, bit layout of 10_state R19. -/
abbrev FlagSet := BitVec 5

end Sys2Proof
end

