-- ==== Sys2Proof/Syntax.lean ====
section
/-!
DEFINITION. The commands of SFCORE: one constructor for each row of spec/opcode_table.json
(30_encoding R45), with the fields the row uses. Modes, kinds, widths and orders are names; the
immediate N stays the 8-bit number the word carries, and WellFormed.lean bounds it.
-/

namespace Sys2Proof

/-- The six rounding modes (10_state R22). -/
inductive RoundingMode where
  | nearestEven
  | towardZero
  | towardNegative
  | towardPositive
  | nearestMaxMagnitude
  | odd
  deriving DecidableEq, Repr

/-- What CMD.RM of a rounding command names: a mode for this command, or DYN, the mode held in the
RM register (10_state R22, 43_rounding R83). -/
inductive RmField where
  | mode (m : RoundingMode)
  | dyn
  deriving DecidableEq, Repr

/-- CMD.WO of the serialization commands (20_memory R34). -/
inductive WordOrder where
  | littleEndianOfWords
  | bigEndianOfWords
  deriving DecidableEq, Repr

/-- The kinds of conversion constant, CMD.SEL of the PCONST commands (30_encoding R49). -/
inductive ConstKind where
  | posOverflow
  | negOverflow
  | nan
  deriving DecidableEq, Repr

/-- The float widths, CMD.SEL of DEFNAN and PROPNAN (30_encoding R49). -/
inductive NanWidth where
  | f16
  | f32
  | f64
  | x80
  | f128
  deriving DecidableEq, Repr

/-- A command of SFCORE (30_encoding R45). `n` is CMD.N, `ex` is CMD.EX, `sg` is CMD.SG. -/
inductive Instr where
  -- WideInt128 (40_wideint128)
  | cmpu128
  | add128
  | sub128
  | neg128
  | shl128 (n : BitVec 8)
  | shr128 (n : BitVec 8)
  | mulw128
  | getw128 (n : BitVec 8)
  | setw128 (n : BitVec 8)
  | tow128 (wo : WordOrder)
  | fromw128 (wo : WordOrder)
  -- WideInt256 (41_wideint256)
  | cmpu256
  | add256
  | sub256
  | neg256
  | shl256 (n : BitVec 8)
  | shr256 (n : BitVec 8)
  | getw256 (n : BitVec 8)
  | setw256 (n : BitVec 8)
  | tow256 (wo : WordOrder)
  | fromw256 (wo : WordOrder)
  -- ExtraWord (42_extraword)
  | shrx64 (n : BitVec 8)
  | shrx128 (n : BitVec 8)
  -- Rounding engine (43_rounding)
  | rndu32 (rm : RmField) (ex sg : Bool)
  | rndi32 (rm : RmField) (ex sg : Bool)
  | rndu64 (rm : RmField) (ex sg : Bool)
  | rndi64 (rm : RmField) (ex sg : Bool)
  -- Architecture policy (44_policy)
  | pconstu32 (k : ConstKind)
  | pconsti32 (k : ConstKind)
  | pconstu64 (k : ConstKind)
  | pconsti64 (k : ConstKind)
  | defnan (w : NanWidth)
  | propnan (w : NanWidth)
  | rdpol
  -- ExceptionState (45_flags)
  | raise (n : BitVec 8)
  | resetf
  | rdflags
  | wrrm (m : RoundingMode)
  | rdrm
  deriving DecidableEq, Repr

end Sys2Proof
end

