-- ==== Sys2Proof/WellFormed.lean ====
section
/-!
DEFINITION. Which instruction terms stand for a legal command word: the ranges of the immediate N
(30_encoding R50). RM, SEL, WO, EX and SG are legal by their types (R48, R49, R51).
-/

namespace Sys2Proof

/-- The immediate is in the range 30_encoding R50 gives the command. -/
def Instr.wf : Instr → Bool
  | .cmpu128 => true
  | .add128 => true
  | .sub128 => true
  | .neg128 => true
  | .shl128 n => decide (n.toNat ≤ 127)
  | .shr128 n => decide (n.toNat ≤ 127)
  | .mulw128 => true
  | .getw128 n => decide (n.toNat ≤ 1)
  | .setw128 n => decide (n.toNat ≤ 1)
  | .tow128 _ => true
  | .fromw128 _ => true
  | .cmpu256 => true
  | .add256 => true
  | .sub256 => true
  | .neg256 => true
  | .shl256 _ => true
  | .shr256 _ => true
  | .getw256 n => decide (n.toNat ≤ 3)
  | .setw256 n => decide (n.toNat ≤ 3)
  | .tow256 _ => true
  | .fromw256 _ => true
  | .shrx64 _ => true
  | .shrx128 _ => true
  | .rndu32 _ _ _ => true
  | .rndi32 _ _ _ => true
  | .rndu64 _ _ _ => true
  | .rndi64 _ _ _ => true
  | .pconstu32 _ => true
  | .pconsti32 _ => true
  | .pconstu64 _ => true
  | .pconsti64 _ => true
  | .defnan _ => true
  | .propnan _ => true
  | .rdpol => true
  | .raise n => decide (n.toNat ≤ 31)
  | .resetf => true
  | .rdflags => true
  | .wrrm _ => true
  | .rdrm => true

end Sys2Proof
end

