-- ==== Sys2Proof/Decode.lean ====
section
/-!
DEFINITION. The command word: its fields (30_encoding R42), the opcode map (R45), the decoder with the
causes of ILLEGAL (R46 to R52, 60_exceptions R118), and after it the encoder, from the same tables.
-/

namespace Sys2Proof

/-! ## Codes of the field values -/

/-- 10_state R22. -/
def RoundingMode.code : RoundingMode → BitVec 3
  | .nearestEven => 0#3
  | .towardZero => 1#3
  | .towardNegative => 2#3
  | .towardPositive => 3#3
  | .nearestMaxMagnitude => 4#3
  | .odd => 6#3

/-- The mode a 3-bit code names; 5 is reserved and 7 is DYN, which is no mode (10_state R22). -/
def RoundingMode.ofCode (c : BitVec 3) : Option RoundingMode :=
  match c.toNat with
  | 0 => some .nearestEven
  | 1 => some .towardZero
  | 2 => some .towardNegative
  | 3 => some .towardPositive
  | 4 => some .nearestMaxMagnitude
  | 6 => some .odd
  | _ => none

/-- 10_state R22: code 7 is DYN. -/
def RmField.code : RmField → BitVec 3
  | .mode m => m.code
  | .dyn => 7#3

/-- CMD.RM of a rounding command: 0, 1, 2, 3, 4, 6 or 7 (30_encoding R48). -/
def RmField.ofCode (c : BitVec 3) : Option RmField :=
  if c = 7#3 then some .dyn else (RoundingMode.ofCode c).map .mode

/-- 20_memory R34. -/
def WordOrder.bit : WordOrder → Bool
  | .littleEndianOfWords => false
  | .bigEndianOfWords => true

/-- 20_memory R34. -/
def WordOrder.ofBit : Bool → WordOrder
  | false => .littleEndianOfWords
  | true => .bigEndianOfWords

/-- 30_encoding R49, first item. -/
def ConstKind.code : ConstKind → BitVec 3
  | .posOverflow => 0#3
  | .negOverflow => 1#3
  | .nan => 2#3

/-- SEL of the PCONST commands: 3..7 are ILLEGAL (30_encoding R49). -/
def ConstKind.ofCode (c : BitVec 3) : Option ConstKind :=
  match c.toNat with
  | 0 => some .posOverflow
  | 1 => some .negOverflow
  | 2 => some .nan
  | _ => none

/-- 30_encoding R49, second item. -/
def NanWidth.code : NanWidth → BitVec 3
  | .f16 => 0#3
  | .f32 => 1#3
  | .f64 => 2#3
  | .x80 => 3#3
  | .f128 => 4#3

/-- SEL of DEFNAN and PROPNAN: 5..7 are ILLEGAL (30_encoding R49). -/
def NanWidth.ofCode (c : BitVec 3) : Option NanWidth :=
  match c.toNat with
  | 0 => some .f16
  | 1 => some .f32
  | 2 => some .f64
  | 3 => some .x80
  | 4 => some .f128
  | _ => none

/-! ## The fields of CMD (30_encoding R42) -/

/-- CMD[7:0]. -/
def fieldOpc (w : Command) : BitVec 8 := w.extractLsb' 0 8
/-- CMD[10:8]. -/
def fieldRm (w : Command) : BitVec 3 := w.extractLsb' 8 3
/-- CMD[11]. -/
def fieldEx (w : Command) : Bool := w.getLsbD 11
/-- CMD[12]. -/
def fieldSg (w : Command) : Bool := w.getLsbD 12
/-- CMD[15:13]. -/
def fieldSel (w : Command) : BitVec 3 := w.extractLsb' 13 3
/-- CMD[16]. -/
def fieldWo (w : Command) : Bool := w.getLsbD 16
/-- CMD[24:17], an unsigned number 0..255, never extended or scaled. -/
def fieldN (w : Command) : BitVec 8 := w.extractLsb' 17 8
/-- CMD[31:25], which must be zero (30_encoding R47). -/
def fieldRsv (w : Command) : BitVec 7 := w.extractLsb' 25 7

/-! ## The opcode map (30_encoding R45) -/

/-- The 39 commands of the opcode map, by name. -/
inductive Opcode where
  | cmpu128 | add128 | sub128 | neg128 | shl128 | shr128 | mulw128 | getw128 | setw128 | tow128 | fromw128
  | cmpu256 | add256 | sub256 | neg256 | shl256 | shr256 | getw256 | setw256 | tow256 | fromw256
  | shrx64 | shrx128
  | rndu32 | rndi32 | rndu64 | rndi64
  | pconstu32 | pconsti32 | pconstu64 | pconsti64 | defnan | propnan | rdpol
  | raise | resetf | rdflags | wrrm | rdrm
  deriving DecidableEq, Repr

/-- The OPC column of 30_encoding R45. -/
def Opcode.code : Opcode → BitVec 8
  | .cmpu128 => 0x10#8
  | .add128 => 0x11#8
  | .sub128 => 0x12#8
  | .neg128 => 0x13#8
  | .shl128 => 0x14#8
  | .shr128 => 0x15#8
  | .mulw128 => 0x16#8
  | .getw128 => 0x17#8
  | .setw128 => 0x18#8
  | .tow128 => 0x19#8
  | .fromw128 => 0x1A#8
  | .cmpu256 => 0x20#8
  | .add256 => 0x21#8
  | .sub256 => 0x22#8
  | .neg256 => 0x23#8
  | .shl256 => 0x24#8
  | .shr256 => 0x25#8
  | .getw256 => 0x27#8
  | .setw256 => 0x28#8
  | .tow256 => 0x29#8
  | .fromw256 => 0x2A#8
  | .shrx64 => 0x30#8
  | .shrx128 => 0x31#8
  | .rndu32 => 0x40#8
  | .rndi32 => 0x41#8
  | .rndu64 => 0x42#8
  | .rndi64 => 0x43#8
  | .pconstu32 => 0x50#8
  | .pconsti32 => 0x51#8
  | .pconstu64 => 0x52#8
  | .pconsti64 => 0x53#8
  | .defnan => 0x54#8
  | .propnan => 0x55#8
  | .rdpol => 0x56#8
  | .raise => 0x60#8
  | .resetf => 0x61#8
  | .rdflags => 0x62#8
  | .wrrm => 0x63#8
  | .rdrm => 0x64#8

/-- Every row of the opcode map. -/
def Opcode.all : List Opcode :=
  [.cmpu128, .add128, .sub128, .neg128, .shl128, .shr128, .mulw128, .getw128, .setw128, .tow128,
    .fromw128] ++
  [.cmpu256, .add256, .sub256, .neg256, .shl256, .shr256, .getw256, .setw256, .tow256, .fromw256] ++
  [.shrx64, .shrx128, .rndu32, .rndi32, .rndu64, .rndi64] ++
  [.pconstu32, .pconsti32, .pconstu64, .pconsti64, .defnan, .propnan, .rdpol] ++
  [.raise, .resetf, .rdflags, .wrrm, .rdrm]

/-- The row whose OPC is `c`; an OPC not listed is unassigned (30_encoding R45). -/
def Opcode.ofCode (c : BitVec 8) : Option Opcode := Opcode.all.find? fun o => o.code == c

/-- Which fields of CMD a command uses. -/
structure FieldUse where
  rm : Bool
  exSg : Bool
  sel : Bool
  wo : Bool
  n : Bool
  deriving DecidableEq, Repr

/-- The rows that use no field. -/
def FieldUse.nothing : FieldUse := ⟨false, false, false, false, false⟩
/-- The rows that use N. -/
def FieldUse.immediate : FieldUse := ⟨false, false, false, false, true⟩
/-- The rows that use WO. -/
def FieldUse.order : FieldUse := ⟨false, false, false, true, false⟩
/-- The rows that use SEL. -/
def FieldUse.select : FieldUse := ⟨false, false, true, false, false⟩
/-- The rows that use RM, EX and SG. -/
def FieldUse.rounding : FieldUse := ⟨true, true, false, false, false⟩
/-- The row that uses RM alone, WRRM. -/
def FieldUse.mode : FieldUse := ⟨true, false, false, false, false⟩

/-- The "fields" column of 30_encoding R45. -/
def Opcode.uses : Opcode → FieldUse
  | .cmpu128 | .add128 | .sub128 | .neg128 | .mulw128 => .nothing
  | .cmpu256 | .add256 | .sub256 | .neg256 => .nothing
  | .rdpol | .resetf | .rdflags | .rdrm => .nothing
  | .shl128 | .shr128 | .getw128 | .setw128 => .immediate
  | .shl256 | .shr256 | .getw256 | .setw256 => .immediate
  | .shrx64 | .shrx128 | .raise => .immediate
  | .tow128 | .fromw128 | .tow256 | .fromw256 => .order
  | .rndu32 | .rndi32 | .rndu64 | .rndi64 => .rounding
  | .pconstu32 | .pconsti32 | .pconstu64 | .pconsti64 | .defnan | .propnan => .select
  | .wrrm => .mode

/-- The largest legal N of a command; 0 where it does not use N (30_encoding R45, R50). -/
def Opcode.maxN : Opcode → Nat
  | .shl128 | .shr128 => 127
  | .getw128 | .setw128 => 1
  | .getw256 | .setw256 => 3
  | .raise => 31
  | .shl256 | .shr256 | .shrx64 | .shrx128 => 255
  | .cmpu128 | .add128 | .sub128 | .neg128 | .mulw128 | .tow128 | .fromw128 => 0
  | .cmpu256 | .add256 | .sub256 | .neg256 | .tow256 | .fromw256 => 0
  | .rndu32 | .rndi32 | .rndu64 | .rndi64 => 0
  | .pconstu32 | .pconsti32 | .pconstu64 | .pconsti64 | .defnan | .propnan | .rdpol => 0
  | .resetf | .rdflags | .wrrm | .rdrm => 0

/-- Every field the command does not use is zero (30_encoding R46, R51). -/
def FieldUse.unusedZero (u : FieldUse) (w : Command) : Bool :=
  (u.rm || fieldRm w == 0#3) && (u.exSg || (!fieldEx w && !fieldSg w)) &&
    (u.sel || fieldSel w == 0#3) && (u.wo || !fieldWo w) && (u.n || fieldN w == 0#8)

/-! ## The decoder -/

/-- Why a command word is ILLEGAL (60_exceptions R118). The hardware records no cause (R117): the name
is the decoder's, for readers. -/
inductive IllegalCause where
  /-- OPC is not one of the 39 values (30_encoding R52 (1)). -/
  | unassignedOpcode
  /-- RSV is not zero (R47). -/
  | reservedNonzero
  /-- A field the command does not use is nonzero (R46). -/
  | unusedFieldNonzero
  /-- RM is 5, or 7 in WRRM (R48). -/
  | rmOutOfRange
  /-- SEL is out of range (R49). -/
  | selOutOfRange
  /-- N is out of range (R50). -/
  | nOutOfRange
  deriving DecidableEq, Repr

/-- A row that uses N: the command `i`, if N is in the row's range (30_encoding R50). -/
def withN (o : Opcode) (w : Command) (i : BitVec 8 → Instr) : Except IllegalCause Instr :=
  if (fieldN w).toNat ≤ o.maxN then .ok (i (fieldN w)) else .error .nOutOfRange

/-- A rounding row (30_encoding R48). -/
def withRounding (w : Command) (i : RmField → Bool → Bool → Instr) : Except IllegalCause Instr :=
  match RmField.ofCode (fieldRm w) with
  | some rm => .ok (i rm (fieldEx w) (fieldSg w))
  | none => .error .rmOutOfRange

/-- WRRM: a storable mode only (30_encoding R48). -/
def withMode (w : Command) (i : RoundingMode → Instr) : Except IllegalCause Instr :=
  match RoundingMode.ofCode (fieldRm w) with
  | some m => .ok (i m)
  | none => .error .rmOutOfRange

/-- A PCONST row (30_encoding R49). -/
def withKind (w : Command) (i : ConstKind → Instr) : Except IllegalCause Instr :=
  match ConstKind.ofCode (fieldSel w) with
  | some k => .ok (i k)
  | none => .error .selOutOfRange

/-- DEFNAN and PROPNAN (30_encoding R49). -/
def withWidth (w : Command) (i : NanWidth → Instr) : Except IllegalCause Instr :=
  match NanWidth.ofCode (fieldSel w) with
  | some v => .ok (i v)
  | none => .error .selOutOfRange

/-- The command of row `o` with the fields of `w`, its used fields checked (30_encoding R48 to R51). -/
def Opcode.operands (o : Opcode) (w : Command) : Except IllegalCause Instr :=
  match o with
  | .cmpu128 => .ok .cmpu128
  | .add128 => .ok .add128
  | .sub128 => .ok .sub128
  | .neg128 => .ok .neg128
  | .shl128 => withN .shl128 w .shl128
  | .shr128 => withN .shr128 w .shr128
  | .mulw128 => .ok .mulw128
  | .getw128 => withN .getw128 w .getw128
  | .setw128 => withN .setw128 w .setw128
  | .tow128 => .ok (.tow128 (.ofBit (fieldWo w)))
  | .fromw128 => .ok (.fromw128 (.ofBit (fieldWo w)))
  | .cmpu256 => .ok .cmpu256
  | .add256 => .ok .add256
  | .sub256 => .ok .sub256
  | .neg256 => .ok .neg256
  | .shl256 => withN .shl256 w .shl256
  | .shr256 => withN .shr256 w .shr256
  | .getw256 => withN .getw256 w .getw256
  | .setw256 => withN .setw256 w .setw256
  | .tow256 => .ok (.tow256 (.ofBit (fieldWo w)))
  | .fromw256 => .ok (.fromw256 (.ofBit (fieldWo w)))
  | .shrx64 => withN .shrx64 w .shrx64
  | .shrx128 => withN .shrx128 w .shrx128
  | .rndu32 => withRounding w .rndu32
  | .rndi32 => withRounding w .rndi32
  | .rndu64 => withRounding w .rndu64
  | .rndi64 => withRounding w .rndi64
  | .pconstu32 => withKind w .pconstu32
  | .pconsti32 => withKind w .pconsti32
  | .pconstu64 => withKind w .pconstu64
  | .pconsti64 => withKind w .pconsti64
  | .defnan => withWidth w .defnan
  | .propnan => withWidth w .propnan
  | .rdpol => .ok .rdpol
  | .raise => withN .raise w .raise
  | .resetf => .ok .resetf
  | .rdflags => .ok .rdflags
  | .wrrm => withMode w .wrrm
  | .rdrm => .ok .rdrm

/-- The decoder, total on every command word (30_encoding R41, R52). -/
def decode (w : Command) : Except IllegalCause Instr :=
  match Opcode.ofCode (fieldOpc w) with
  | none => .error .unassignedOpcode
  | some o =>
    if fieldRsv w ≠ 0#7 then .error .reservedNonzero
    else if o.uses.unusedZero w then o.operands w
    else .error .unusedFieldNonzero

/-- The instruction the decoder reads from a table row's bits: one 32-bit word (30_encoding R41), bit 0
its least significant, bits at `nbits` and above zero. A number of more than 32 bits is no command word. -/
def decodeTableWord (nbits w : Nat) : Option Instr :=
  if w % 2 ^ nbits < 2 ^ 32 then
    match decode (BitVec.ofNat 32 (w % 2 ^ nbits)) with
    | .ok i => some i
    | .error _ => none
  else none

/-! ## The encoder -/

/-- `OPC | RM<<8 | EX<<11 | SG<<12 | SEL<<13 | WO<<16 | N<<17`, the formula under 30_encoding R45. -/
def packWord (opc : BitVec 8) (rm : BitVec 3) (ex sg : Bool) (sel : BitVec 3) (wo : Bool)
    (n : BitVec 8) : Command :=
  opc.setWidth 32 ||| (rm.setWidth 32 <<< 8) ||| ((BitVec.ofBool ex).setWidth 32 <<< 11) |||
    ((BitVec.ofBool sg).setWidth 32 <<< 12) ||| (sel.setWidth 32 <<< 13) |||
    ((BitVec.ofBool wo).setWidth 32 <<< 16) ||| (n.setWidth 32 <<< 17)

/-- A row with no field. -/
def encodePlain (o : Opcode) : Command := packWord o.code 0#3 false false 0#3 false 0#8
/-- A row with an immediate. -/
def encodeN (o : Opcode) (n : BitVec 8) : Command := packWord o.code 0#3 false false 0#3 false n
/-- A row with a word order. -/
def encodeWo (o : Opcode) (wo : WordOrder) : Command := packWord o.code 0#3 false false 0#3 wo.bit 0#8
/-- A row with a sub-select. -/
def encodeSel (o : Opcode) (sel : BitVec 3) : Command := packWord o.code 0#3 false false sel false 0#8
/-- A rounding row. -/
def encodeRounding (o : Opcode) (rm : RmField) (ex sg : Bool) : Command :=
  packWord o.code rm.code ex sg 0#3 false 0#8

/-- The command word of an instruction (30_encoding R45). -/
def encode : Instr → Command
  | .cmpu128 => encodePlain .cmpu128
  | .add128 => encodePlain .add128
  | .sub128 => encodePlain .sub128
  | .neg128 => encodePlain .neg128
  | .shl128 n => encodeN .shl128 n
  | .shr128 n => encodeN .shr128 n
  | .mulw128 => encodePlain .mulw128
  | .getw128 n => encodeN .getw128 n
  | .setw128 n => encodeN .setw128 n
  | .tow128 wo => encodeWo .tow128 wo
  | .fromw128 wo => encodeWo .fromw128 wo
  | .cmpu256 => encodePlain .cmpu256
  | .add256 => encodePlain .add256
  | .sub256 => encodePlain .sub256
  | .neg256 => encodePlain .neg256
  | .shl256 n => encodeN .shl256 n
  | .shr256 n => encodeN .shr256 n
  | .getw256 n => encodeN .getw256 n
  | .setw256 n => encodeN .setw256 n
  | .tow256 wo => encodeWo .tow256 wo
  | .fromw256 wo => encodeWo .fromw256 wo
  | .shrx64 n => encodeN .shrx64 n
  | .shrx128 n => encodeN .shrx128 n
  | .rndu32 rm ex sg => encodeRounding .rndu32 rm ex sg
  | .rndi32 rm ex sg => encodeRounding .rndi32 rm ex sg
  | .rndu64 rm ex sg => encodeRounding .rndu64 rm ex sg
  | .rndi64 rm ex sg => encodeRounding .rndi64 rm ex sg
  | .pconstu32 k => encodeSel .pconstu32 k.code
  | .pconsti32 k => encodeSel .pconsti32 k.code
  | .pconstu64 k => encodeSel .pconstu64 k.code
  | .pconsti64 k => encodeSel .pconsti64 k.code
  | .defnan w => encodeSel .defnan w.code
  | .propnan w => encodeSel .propnan w.code
  | .rdpol => encodePlain .rdpol
  | .raise n => encodeN .raise n
  | .resetf => encodePlain .resetf
  | .rdflags => encodePlain .rdflags
  | .wrrm m => packWord Opcode.wrrm.code m.code false false 0#3 false 0#8
  | .rdrm => encodePlain .rdrm

end Sys2Proof
end

