-- ==== Sys2Proof/Config.lean ====
section
/-!
DEFINITION. The named parameters of 00_scope R7: their types, and the two OPEN ones as free values.
The defaults of the others are tables of Machine/Params.lean.
-/

namespace Sys2Proof

/-- The four architecture policies, a closed set (10_state R24). -/
inductive Policy where
  | armPropagate
  | armDefaultNaN
  | x87
  | sse
  deriving DecidableEq, Repr

/-- Which NaN PROPNAN selects under POLICY 3, x86-SSE (00_scope R7, 44_policy R104, R108). -/
inductive SseNanRule where
  | largerMagnitude
  | firstNaN
  deriving DecidableEq, Repr

/-- The increment a negative value gets under Odd in the signed rounding paths
(00_scope R7, 43_rounding R84). -/
inductive OddNegIncrement where
  | full
  | zero
  deriving DecidableEq, Repr

/-- When tininess is detected, relative to rounding (44_policy R95). -/
inductive Tininess where
  | beforeRounding
  | afterRounding
  deriving DecidableEq, Repr

/-- The domain of ARM_I32_FROM_NAN and ARM_I64_FROM_NAN: "0, the signed minimum or the signed maximum"
of the width (00_scope R7, 92 D24). -/
inductive ArmFromNaN where
  | zero
  | signedMin
  | signedMax
  deriving DecidableEq, Repr, Inhabited

/-- ARM_I32_FROM_NAN. OPEN in the spec, no default (44_policy R94, 92 D24, 93 I6): a free value,
constrained to its three-element domain and to nothing else (log 5, safe). -/
opaque Config.armI32FromNaN : ArmFromNaN

/-- ARM_I64_FROM_NAN. OPEN in the spec, no default (44_policy R94, 92 D24, 93 I6): a free value,
constrained to its three-element domain and to nothing else (log 5, safe). -/
opaque Config.armI64FromNaN : ArmFromNaN

/-- The column of PCONST and DEFAULT_NAN that the two ARM variants share, and their tininess
(44_policy R93 to R96). The signed NaN entries are not here: they are the OPEN free values above. -/
structure ArmParams where
  u32PosOverflow : BitVec 32
  u32NegOverflow : BitVec 32
  u32NaN : BitVec 32
  i32PosOverflow : BitVec 32
  i32NegOverflow : BitVec 32
  u64PosOverflow : BitVec 64
  u64NegOverflow : BitVec 64
  u64NaN : BitVec 64
  i64PosOverflow : BitVec 64
  i64NegOverflow : BitVec 64
  nan16 : BitVec 16
  nan32 : BitVec 32
  nan64 : BitVec 64
  nan80 : BitVec 80
  nan128 : BitVec 128
  tininess : Tininess
  deriving DecidableEq, Repr

/-- The column of PCONST and DEFAULT_NAN that the two x86 variants share, and their tininess
(44_policy R93 to R96). -/
structure X86Params where
  u32PosOverflow : BitVec 32
  u32NegOverflow : BitVec 32
  u32NaN : BitVec 32
  i32PosOverflow : BitVec 32
  i32NegOverflow : BitVec 32
  i32NaN : BitVec 32
  u64PosOverflow : BitVec 64
  u64NegOverflow : BitVec 64
  u64NaN : BitVec 64
  i64PosOverflow : BitVec 64
  i64NegOverflow : BitVec 64
  i64NaN : BitVec 64
  nan16 : BitVec 16
  nan32 : BitVec 32
  nan64 : BitVec 64
  nan80 : BitVec 80
  nan128 : BitVec 128
  tininess : Tininess
  deriving DecidableEq, Repr

/-- Every parameter of 00_scope R7 that has a default. DESIGN CHOICE (log 6, safe): the model carries
them as data of the machine, so that a statement about every state holds for every choice of them. -/
structure Params where
  arm : ArmParams
  x86 : X86Params
  sseNanRule : SseNanRule
  oddNegIncrement : OddNegIncrement
  deriving DecidableEq, Repr

end Sys2Proof
end

