-- ==== Sys2Proof/Machine/Params.lean ====
section
/-!
DEFINITION. The policy codes, the default parameter tables of 44_policy (R94, R95, R96) and the strap
that State.reset samples.
-/

namespace Sys2Proof

/-- 10_state R24. -/
def Policy.code : Policy → BitVec 2
  | .armPropagate => 0#2
  | .armDefaultNaN => 1#2
  | .x87 => 2#2
  | .sse => 3#2

/-- The policy a strap value selects; all four codes are legal (10_state R24). -/
def Policy.ofCode (c : BitVec 2) : Policy :=
  match c.toNat with
  | 0 => .armPropagate
  | 1 => .armDefaultNaN
  | 2 => .x87
  | _ => .sse

/-- The two ARM variants share every constant, and so do the two x86 variants (44_policy R93). -/
def Policy.isArm : Policy → Bool
  | .armPropagate => true
  | .armDefaultNaN => true
  | .x87 => false
  | .sse => false

/-- The ARM columns of 44_policy R94 and R96 and the ARM rows of R95. -/
def ArmParams.default : ArmParams where
  u32PosOverflow := 0xFFFFFFFF#32
  u32NegOverflow := 0x00000000#32
  u32NaN := 0x00000000#32
  i32PosOverflow := 0x7FFFFFFF#32
  i32NegOverflow := 0x80000000#32
  u64PosOverflow := 0xFFFFFFFFFFFFFFFF#64
  u64NegOverflow := 0x0000000000000000#64
  u64NaN := 0x0000000000000000#64
  i64PosOverflow := 0x7FFFFFFFFFFFFFFF#64
  i64NegOverflow := 0x8000000000000000#64
  nan16 := 0x7E00#16
  nan32 := 0x7FC00000#32
  nan64 := 0x7FF8000000000000#64
  nan80 := 0x7FFFC000000000000000#80
  nan128 := 0x7FFF8000000000000000000000000000#128
  tininess := .beforeRounding

/-- The x86 columns of 44_policy R94 and R96 and the x86 rows of R95. -/
def X86Params.default : X86Params where
  u32PosOverflow := 0xFFFFFFFF#32
  u32NegOverflow := 0xFFFFFFFF#32
  u32NaN := 0xFFFFFFFF#32
  i32PosOverflow := 0x80000000#32
  i32NegOverflow := 0x80000000#32
  i32NaN := 0x80000000#32
  u64PosOverflow := 0xFFFFFFFFFFFFFFFF#64
  u64NegOverflow := 0xFFFFFFFFFFFFFFFF#64
  u64NaN := 0xFFFFFFFFFFFFFFFF#64
  i64PosOverflow := 0x8000000000000000#64
  i64NegOverflow := 0x8000000000000000#64
  i64NaN := 0x8000000000000000#64
  nan16 := 0xFE00#16
  nan32 := 0xFFC00000#32
  nan64 := 0xFFF8000000000000#64
  nan80 := 0xFFFFC000000000000000#80
  nan128 := 0xFFFF8000000000000000000000000000#128
  tininess := .afterRounding

/-- The defaults of 00_scope R7: the tables above, SSE_NAN_RULE = LargerMagnitude (90 C6) and
ODD_NEG_INCREMENT = Full (90 C9). -/
def Params.default : Params where
  arm := .default
  x86 := .default
  sseNanRule := .largerMagnitude
  oddNegIncrement := .full

/-- The strap State.reset samples. DESIGN CHOICE (log 2, unsafe): the spec leaves cfg_policy to the one
who instantiates the block (00_scope R7); `State.resetWith` takes any value. -/
def strapAtReset : BitVec 2 := 0#2

end Sys2Proof
end

