-- ==== Sys2Proof/Machine/State.lean ====
section
/-!
DEFINITION. The state of one SFCORE block as plain data (10_state R14 to R30), what the host drives in
one slot, the reasons a step could stop (there are none, 60_exceptions R115), and reset (R127).
-/

namespace Sys2Proof.Machine

/-- SFCORE takes no trap, fault or abort on any command (60_exceptions R115), and nothing in it is stuck
(93 Part 1), so no fault exists and nobody raises one: safe. -/
inductive Fault where
  deriving DecidableEq, Repr

/-- The host's refusals. -/
inductive Refusal where
  /-- An instruction that has no meaning yet. No arm of `exec` raises it: every command of the opcode map
  is modelled. Safe. -/
  | notModelled (mnemonic : String)
  deriving DecidableEq, Repr

/-- The STATUS port (10_state R15): OK = 0, ILLEGAL = 1. -/
inductive Status where
  | ok
  | illegal
  deriving DecidableEq, Repr

/-- What the host drives on the request ports for one command (10_state R14). -/
structure Request where
  cmd : Command
  a : Bus
  b : Bus
  deriving DecidableEq, Repr

/-- What the host drives during one slot: the reset input, the strap, and the request of a command if
it issues one (10_state R14, 70_reset R127, R128). -/
structure HostInput where
  rst : Bool
  cfgPolicy : BitVec 2
  request : Option Request
  deriving DecidableEq, Repr

/-- The state of one block. Architectural: `flags`, `rm`, `policy` (10_state R16). The rest are the
ports, and three fields of the model's own. -/
structure State where
  /-- FLAGS[4:0] (10_state R19). -/
  flags : FlagSet
  /-- RM[2:0], one of the six legal codes (10_state R21). -/
  rm : RoundingMode
  /-- POLICY[1:0] (10_state R23). -/
  policy : Policy
  /-- The result bus R (10_state R15). -/
  r : Bus
  /-- The STATUS port (10_state R15). -/
  status : Status
  /-- The command port, as last driven (10_state R14). -/
  cmd : Command
  /-- Operand bus A, as last driven (10_state R14). -/
  a : Bus
  /-- Operand bus B, as last driven (10_state R14). -/
  b : Bus
  /-- The reset input, as last driven (10_state R14). -/
  rst : Bool
  /-- The policy strap, as last driven (10_state R14). -/
  cfgPolicy : BitVec 2
  /-- The model's own: the slots the host has still to drive, oldest first (log 1). -/
  pending : List HostInput
  /-- The model's own: the sticky overlay mark "a command was rejected" (60_exceptions R117, 93 I1; log 8). -/
  refusedMark : Bool
  /-- The parameters of 00_scope R7 (log 6); no step writes them. -/
  params : Params
  deriving DecidableEq, Repr

/-- The state right after a reset with the strap at `cfg` (70_reset R127, 10_state R30), nothing driven yet. -/
def State.resetWith (cfg : BitVec 2) : State where
  flags := 0#5
  rm := .nearestEven
  policy := .ofCode cfg
  r := 0#256
  status := .ok
  cmd := 0#32
  a := 0#256
  b := 0#256
  rst := false
  cfgPolicy := cfg
  pending := []
  refusedMark := false
  params := .default

/-- The machine right after reset, with the strap of log 2. -/
def State.reset : State := .resetWith strapAtReset

end Sys2Proof.Machine
end

