-- ==== Sys2Proof/Machine/Flags.lean ====
section
/-!
DEFINITION. The flag masks (10_state R19) and the one way a command sets flags: a bitwise OR merge into the
accumulator (10_state R20 (a), 45_flags R110).
-/

namespace Sys2Proof.Machine

/-- 10_state R19, bit 0. -/
def flagInexact : FlagSet := 0x01#5
/-- 10_state R19, bit 1. -/
def flagUnderflow : FlagSet := 0x02#5
/-- 10_state R19, bit 2. -/
def flagOverflow : FlagSet := 0x04#5
/-- 10_state R19, bit 3. -/
def flagDivideByZero : FlagSet := 0x08#5
/-- 10_state R19, bit 4. -/
def flagInvalid : FlagSet := 0x10#5

/-- `FLAGS <- FLAGS | m` (10_state R20 (a)). -/
def State.raiseFlags (s : State) (m : FlagSet) : State := { s with flags := s.flags ||| m }

/-- `if c then raise m`. -/
def State.raiseIf (s : State) (c : Bool) (m : FlagSet) : State := if c then s.raiseFlags m else s

/-- `FLAGS <- 0` (10_state R20 (b)). -/
def State.clearFlags (s : State) : State := { s with flags := 0#5 }

end Sys2Proof.Machine
end

