-- ==== Sys2Proof/Machine/Ops.lean ====
section
/-!
DEFINITION. The operations every command is built from: completing with a result, being rejected as ILLEGAL,
the reset action, and driving the input ports. SFCORE has no trap entry and no trap return (60_exceptions
R115, R121): the shared exceptional outcomes are `reject` here and the invalid path of Rounding.lean.
-/

namespace Sys2Proof.Machine

/-- What a step or a meaning answers. -/
abbrev Result := Host.Outcome State Fault Refusal

/-- `R <- r; STATUS <- OK`: how every command that decodes ends (00_scope R11, 30_encoding R44). -/
def complete (s : State) (r : Bus) : Result := .next { s with r := r, status := .ok }

/-- `zext_256(x)` (00_scope R9): bits of R a command does not name are zero (30_encoding R44). -/
def zext {n : Nat} (x : BitVec n) : Bus := x.setWidth 256

/-- Rejection of an ILLEGAL command word (60_exceptions R117): R and STATUS change, no register does. The
sticky mark is the overlay R117 allows (log 8). -/
def reject (s : State) : Result := .next { s with r := 0#256, status := .illegal, refusedMark := true }

/-- A command whose immediate is out of the range 30_encoding R50 gives is ILLEGAL. `decode` never answers
such a term; the meanings keep the check so that the term means what its word means (log 10). -/
def whenLegal (legal : Bool) (s : State) (result : Result) : Result := if legal then result else reject s

/-- The reset action (70_reset R127). -/
def resetAction (s : State) : State :=
  { s with flags := 0#5, rm := .nearestEven, policy := .ofCode s.cfgPolicy, r := 0#256, status := .ok }

/-- The host drives one slot's inputs; `rest` is what it will drive later. Ports of a slot without a
command keep their last value. -/
def State.accept (s : State) (x : HostInput) (rest : List HostInput) : State :=
  match x.request with
  | none => { s with pending := rest, rst := x.rst, cfgPolicy := x.cfgPolicy }
  | some q =>
    { s with
      pending := rest, rst := x.rst, cfgPolicy := x.cfgPolicy, cmd := q.cmd, a := q.a, b := q.b }

/-- A slot in which the host issues the command word `w`, reset released, other ports as they are. -/
def State.commandSlot (s : State) (w : Command) : HostInput where
  rst := false
  cfgPolicy := s.cfgPolicy
  request := some { cmd := w, a := s.a, b := s.b }

end Sys2Proof.Machine
end

