-- ==== Sys2Proof/Machine/Operands.lean ====
section
/-!
DEFINITION. Operand assembly from the buses (30_encoding R43) and the words of a wide value (10_state R25,
R26; 20_memory R33, R34).
-/

namespace Sys2Proof.Machine

/-- `A[63:0]`: sig, or the primary of SHRX64. -/
def State.a64 (s : State) : Word64 := s.a.extractLsb' 0 64
/-- `B[63:0]`: the word w of SETW, or the extra word. -/
def State.b64 (s : State) : Word64 := s.b.extractLsb' 0 64
/-- `A[127:0]`. -/
def State.a128 (s : State) : Wide128 := s.a.extractLsb' 0 128
/-- `B[127:0]`. -/
def State.b128 (s : State) : Wide128 := s.b.extractLsb' 0 128

/-- Word k of a wide value, `X[64k+63:64k]`, word 0 least significant (10_state R26, 20_memory R33). -/
def word {n : Nat} (x : BitVec n) (k : Nat) : Word64 := x.extractLsb' (64 * k) 64

/-- `(a & ~(M << 64i)) | (w << 64i)` with M = 2^64 - 1 (40_wideint128 R65, 41_wideint256 R77). -/
def replaceWord {n : Nat} (x : BitVec n) (i : Nat) (w : Word64) : BitVec n :=
  (x &&& ~~~((BitVec.allOnes 64).setWidth n <<< (64 * i))) ||| (w.setWidth n <<< (64 * i))

/-- The two words in the order WO picks: slot k holds word k, or word 1 - k (20_memory R34). -/
def orderWords128 (wo : WordOrder) (x : Wide128) : Wide128 :=
  match wo with
  | .littleEndianOfWords => word x 1 ++ word x 0
  | .bigEndianOfWords => word x 0 ++ word x 1

/-- The four words in the order WO picks: slot k holds word k, or word 3 - k (20_memory R34). -/
def orderWords256 (wo : WordOrder) (x : Bus) : Bus :=
  match wo with
  | .littleEndianOfWords => word x 3 ++ word x 2 ++ word x 1 ++ word x 0
  | .bigEndianOfWords => word x 0 ++ word x 1 ++ word x 2 ++ word x 3

/-- The 64-bit two's-complement pattern of the unsigned comparison, -1, 0 or +1 (10_state R28,
40_wideint128 R57, 41_wideint256 R70). -/
def compareUnsigned {n : Nat} (x y : BitVec n) : Word64 :=
  if x.toNat < y.toNat then BitVec.allOnes 64 else if y.toNat < x.toNat then 1#64 else 0#64

/-- The effective rounding mode: DYN selects the mode in the RM register (43_rounding R83). -/
def State.effectiveMode (s : State) : RmField → RoundingMode
  | .mode m => m
  | .dyn => s.rm

/-- The kind of overflow sentinel a sign selects (43_rounding R85). -/
def overflowKind (sign : Bool) : ConstKind := if sign then .negOverflow else .posOverflow

end Sys2Proof.Machine
end

