-- ==== Sys2Proof/Machine/ExceptionState.lean ====
section
/-!
DEFINITION. The ExceptionState commands (45_flags R110 to R114).
-/

namespace Sys2Proof.Machine

/-- RAISE (R110): `FLAGS <- FLAGS | N[4:0]`, N ≤ 31. -/
def execRaise (n : BitVec 8) (s : State) : Result :=
  whenLegal (n.toNat ≤ 31) s (complete (s.raiseFlags (n.extractLsb' 0 5)) 0#256)

/-- RESETF (R111): FLAGS only; RM is kept (92 D31). -/
def execResetf (s : State) : Result := complete s.clearFlags 0#256

/-- RDFLAGS (R112): the read clears nothing. -/
def execRdflags (s : State) : Result := complete s (zext s.flags)

/-- WRRM (R113). -/
def execWrrm (m : RoundingMode) (s : State) : Result := complete { s with rm := m } 0#256

/-- RDRM (R114). -/
def execRdrm (s : State) : Result := complete s (zext s.rm.code)

end Sys2Proof.Machine
end

