-- ==== Sys2Proof/Machine/ExtraWord.lean ====
section
/-!
DEFINITION. The ExtraWord commands: right shifts that keep what they discard as a 64-bit extra word
(42_extraword R80 to R82). No flag is written.
-/

namespace Sys2Proof.Machine

/-- "Jam" an incoming nonzero word into bit 0 (42_extraword R81, R82). -/
def jam (e x : Word64) : Word64 := if x = 0#64 then e else e ||| 1#64

/-- The extra word of a primary word that is wholly discarded at distance `d` beyond its own width:
the word itself at 0, only "it was nonzero" further on (R81 n ≥ 64, R82 n ≥ 128). -/
def collapsed (v : Word64) (d : Nat) : Word64 :=
  if d = 0 then v else if v = 0#64 then 0#64 else 1#64

/-- (primary, extra) of SHRX64 (R81). -/
def shiftJam64 (v x : Word64) (n : Nat) : Word64 × Word64 :=
  if n = 0 then (v, x)
  else if n < 64 then (v >>> n, jam (v <<< (64 - n)) x)
  else (0#64, jam (collapsed v (n - 64)) x)

/-- (primary, extra) of SHRX128 (R82), with a64 the high and a0 the low word of the primary. -/
def shiftJam128 (v : Wide128) (x : Word64) (n : Nat) : Wide128 × Word64 :=
  let a64 := word v 1
  let a0 := word v 0
  if n = 0 then (v, x)
  else if n < 64 then
    ((a64 >>> n) ++ ((a64 <<< (64 - n)) ||| (a0 >>> n)), jam (a0 <<< (64 - n)) x)
  else if n = 64 then (0#64 ++ a64, jam a0 x)
  else if n < 128 then
    (0#64 ++ (a64 >>> (n - 64)), jam (a64 <<< (128 - n)) (x ||| a0))
  else (0#64 ++ 0#64, jam (collapsed a64 (n - 128)) (x ||| a0))

/-- SHRX64 (R81): primary in R[63:0], extra in R[127:64]. -/
def execShrx64 (n : BitVec 8) (s : State) : Result :=
  complete s (zext ((shiftJam64 s.a64 s.b64 n.toNat).2 ++ (shiftJam64 s.a64 s.b64 n.toNat).1))

/-- SHRX128 (R82): primary in R[127:0], extra in R[191:128]. -/
def execShrx128 (n : BitVec 8) (s : State) : Result :=
  complete s (zext ((shiftJam128 s.a128 s.b64 n.toNat).2 ++ (shiftJam128 s.a128 s.b64 n.toNat).1))

end Sys2Proof.Machine
end

