-- ==== Sys2Proof/Machine/Policy.lean ====
section
/-!
DEFINITION. The architecture-policy commands (44_policy R93 to R109): conversion constants, default NaNs, NaN
classification and propagation, RDPOL.
-/

namespace Sys2Proof.Machine

/-! ## Conversion constants (R94) -/

/-- The pattern of an ARM signed-from-NaN choice in w bits (00_scope R7). -/
def armFromNaNValue (w : Nat) : ArmFromNaN → BitVec w
  | .zero => 0#w
  | .signedMin => BitVec.intMin w
  | .signedMax => BitVec.intMax w

/-- `PCONST[policy][U32][kind]` (R94). -/
def pconstU32 (p : Params) (policy : Policy) (k : ConstKind) : BitVec 32 :=
  match policy.isArm, k with
  | true, .posOverflow => p.arm.u32PosOverflow
  | true, .negOverflow => p.arm.u32NegOverflow
  | true, .nan => p.arm.u32NaN
  | false, .posOverflow => p.x86.u32PosOverflow
  | false, .negOverflow => p.x86.u32NegOverflow
  | false, .nan => p.x86.u32NaN

/-- `PCONST[policy][I32][kind]` (R94); the ARM NaN entry is the free value ARM_I32_FROM_NAN (log 5). -/
def pconstI32 (p : Params) (policy : Policy) (k : ConstKind) : BitVec 32 :=
  match policy.isArm, k with
  | true, .posOverflow => p.arm.i32PosOverflow
  | true, .negOverflow => p.arm.i32NegOverflow
  | true, .nan => armFromNaNValue 32 Config.armI32FromNaN
  | false, .posOverflow => p.x86.i32PosOverflow
  | false, .negOverflow => p.x86.i32NegOverflow
  | false, .nan => p.x86.i32NaN

/-- `PCONST[policy][U64][kind]` (R94). -/
def pconstU64 (p : Params) (policy : Policy) (k : ConstKind) : BitVec 64 :=
  match policy.isArm, k with
  | true, .posOverflow => p.arm.u64PosOverflow
  | true, .negOverflow => p.arm.u64NegOverflow
  | true, .nan => p.arm.u64NaN
  | false, .posOverflow => p.x86.u64PosOverflow
  | false, .negOverflow => p.x86.u64NegOverflow
  | false, .nan => p.x86.u64NaN

/-- `PCONST[policy][I64][kind]` (R94); the ARM NaN entry is the free value ARM_I64_FROM_NAN (log 5). -/
def pconstI64 (p : Params) (policy : Policy) (k : ConstKind) : BitVec 64 :=
  match policy.isArm, k with
  | true, .posOverflow => p.arm.i64PosOverflow
  | true, .negOverflow => p.arm.i64NegOverflow
  | true, .nan => armFromNaNValue 64 Config.armI64FromNaN
  | false, .posOverflow => p.x86.i64PosOverflow
  | false, .negOverflow => p.x86.i64NegOverflow
  | false, .nan => p.x86.i64NaN

/-- `TININESS[policy]` (R95). -/
def tininess (p : Params) (policy : Policy) : Tininess :=
  if policy.isArm then p.arm.tininess else p.x86.tininess

/-- R95: BeforeRounding is 0, AfterRounding is 1. -/
def tininessBit : Tininess → BitVec 1
  | .beforeRounding => 0#1
  | .afterRounding => 1#1

/-! ## NaN formats (R97). Operands and results of every width sit in the low bits of 128 (R98). -/

/-- `DEFAULT_NAN[policy][width]` (R96). -/
def defaultNaN (p : Params) (policy : Policy) (w : NanWidth) : Wide128 :=
  match policy.isArm, w with
  | true, .f16 => p.arm.nan16.setWidth 128
  | true, .f32 => p.arm.nan32.setWidth 128
  | true, .f64 => p.arm.nan64.setWidth 128
  | true, .x80 => p.arm.nan80.setWidth 128
  | true, .f128 => p.arm.nan128
  | false, .f16 => p.x86.nan16.setWidth 128
  | false, .f32 => p.x86.nan32.setWidth 128
  | false, .f64 => p.x86.nan64.setWidth 128
  | false, .x80 => p.x86.nan80.setWidth 128
  | false, .f128 => p.x86.nan128

/-- Operand `X[w-1:0]` of a bus, bits at w and above ignored (R98). -/
def nanOperand (w : NanWidth) (x : Bus) : Wide128 :=
  match w with
  | .f16 => (x.extractLsb' 0 16).setWidth 128
  | .f32 => (x.extractLsb' 0 32).setWidth 128
  | .f64 => (x.extractLsb' 0 64).setWidth 128
  | .x80 => (x.extractLsb' 0 80).setWidth 128
  | .f128 => x.extractLsb' 0 128

/-- The isNaN column of R97. -/
def isNaN (w : NanWidth) (x : Wide128) : Bool :=
  match w with
  | .f16 => x.extractLsb' 10 5 == 0x1F#5 && x.extractLsb' 0 10 != 0#10
  | .f32 => x.extractLsb' 23 8 == 0xFF#8 && x.extractLsb' 0 23 != 0#23
  | .f64 => x.extractLsb' 52 11 == 0x7FF#11 && x.extractLsb' 0 52 != 0#52
  | .x80 => x.extractLsb' 64 15 == 0x7FFF#15 && x.extractLsb' 0 63 != 0#63
  | .f128 => x.extractLsb' 112 15 == 0x7FFF#15 && x.extractLsb' 0 112 != 0#112

/-- The isSNaN column of R97. -/
def isSNaN (w : NanWidth) (x : Wide128) : Bool :=
  match w with
  | .f16 => isNaN .f16 x && !x.getLsbD 9
  | .f32 => isNaN .f32 x && !x.getLsbD 22
  | .f64 => isNaN .f64 x && !x.getLsbD 51
  | .x80 => x.extractLsb' 64 15 == 0x7FFF#15 && !x.getLsbD 62 && x.extractLsb' 0 62 != 0#62
  | .f128 => isNaN .f128 x && !x.getLsbD 111

/-- What `quiet` sets: the quiet bit of R97, and for X80 the explicit integer bit too. -/
def quietMask : NanWidth → Wide128
  | .f16 => 0x0200#128
  | .f32 => 0x00400000#128
  | .f64 => 0x0008000000000000#128
  | .x80 => 0xC000000000000000#128
  | .f128 => 0x00008000000000000000000000000000#128

/-- `quiet(x)` (R97). -/
def quiet (w : NanWidth) (x : Wide128) : Wide128 := x ||| quietMask w

/-- The sign-bit column of R97. -/
def nanSign (w : NanWidth) (x : Wide128) : Bool :=
  match w with
  | .f16 => x.getLsbD 15
  | .f32 => x.getLsbD 31
  | .f64 => x.getLsbD 63
  | .x80 => x.getLsbD 79
  | .f128 => x.getLsbD 127

/-- The magnitude column of R97. -/
def nanMag (w : NanWidth) (x : Wide128) : Nat :=
  match w with
  | .f16 => (x.extractLsb' 0 15).toNat
  | .f32 => (x.extractLsb' 0 31).toNat
  | .f64 => (x.extractLsb' 0 63).toNat
  | .x80 => (x.extractLsb' 0 79).toNat
  | .f128 => (x.extractLsb' 0 127).toNat

/-! ## NaN propagation (R104 to R108) -/

/-- ARMPROP (R105): a signaling NaN wins, the first operand first; otherwise the first NaN. -/
def armPropagated (w : NanWidth) (x y : Wide128) : Wide128 :=
  if isSNaN w x || isSNaN w y then quiet w (if isSNaN w x then x else y)
  else quiet w (if isNaN w x then x else y)

/-- The magnitude comparison that ends LARGERMAG (R107): the larger magnitude; on equal magnitudes the
operand with sign 0. -/
def largerByMagnitude (w : NanWidth) (x y : Wide128) : Wide128 :=
  if nanMag w x < nanMag w y then quiet w y
  else if nanMag w y < nanMag w x then quiet w x
  else if !nanSign w x && nanSign w y then quiet w x
  else quiet w y

/-- LARGERMAG (R107). -/
def largerMagnitude (w : NanWidth) (x y : Wide128) : Wide128 :=
  match isSNaN w x, isSNaN w y with
  | true, false => if isNaN w y then quiet w y else quiet w x
  | false, true => if isNaN w x then quiet w x else quiet w y
  | true, true => largerByMagnitude w x y
  | false, false => largerByMagnitude w x y

/-- FIRSTNAN (R108). -/
def firstNaN (w : NanWidth) (x y : Wide128) : Wide128 := quiet w (if isNaN w x then x else y)

/-- The NaN PROPNAN selects, one match on POLICY (R93, R104). -/
def propagated (p : Params) (policy : Policy) (w : NanWidth) (x y : Wide128) : Wide128 :=
  match policy with
  | .armPropagate => armPropagated w x y
  | .armDefaultNaN => defaultNaN p .armDefaultNaN w
  | .x87 => largerMagnitude w x y
  | .sse =>
    match p.sseNanRule with
    | .largerMagnitude => largerMagnitude w x y
    | .firstNaN => firstNaN w x y

/-! ## The commands -/

/-- PCONSTU32 (R99). -/
def execPconstu32 (k : ConstKind) (s : State) : Result := complete s (zext (pconstU32 s.params s.policy k))

/-- PCONSTI32 (R100): not sign-extended. -/
def execPconsti32 (k : ConstKind) (s : State) : Result := complete s (zext (pconstI32 s.params s.policy k))

/-- PCONSTU64 (R101). -/
def execPconstu64 (k : ConstKind) (s : State) : Result := complete s (zext (pconstU64 s.params s.policy k))

/-- PCONSTI64 (R102). -/
def execPconsti64 (k : ConstKind) (s : State) : Result := complete s (zext (pconstI64 s.params s.policy k))

/-- DEFNAN (R103). -/
def execDefnan (w : NanWidth) (s : State) : Result := complete s (zext (defaultNaN s.params s.policy w))

/-- PROPNAN (R104): Invalid exactly when an operand is signaling, under every policy. -/
def execPropnan (w : NanWidth) (s : State) : Result :=
  let x := nanOperand w s.a
  let y := nanOperand w s.b
  complete (s.raiseIf (isSNaN w x || isSNaN w y) flagInvalid) (zext (propagated s.params s.policy w x y))

/-- RDPOL (R109): `{TININESS[POLICY], POLICY}`. -/
def execRdpol (s : State) : Result :=
  complete s (zext (tininessBit (tininess s.params s.policy) ++ s.policy.code))

end Sys2Proof.Machine
end

