-- ==== Sys2Proof/Machine/Rounding.lean ====
section
/-!
DEFINITION. The rounding engine (43_rounding R83 to R92): the increments, the tie and odd corrections, the range
checks, the invalid path, and the four commands over them.
-/

namespace Sys2Proof.Machine

/-- What the increment table of R84 names. -/
inductive Increment where
  | none
  | half
  | full
  deriving DecidableEq, Repr

/-- R84, 32-bit paths: half is 0x800, full is 0xFFF. -/
def Increment.amount32 : Increment → Nat
  | .none => 0
  | .half => 0x800
  | .full => 0xFFF

/-- R84, 64-bit paths: half is `(extra ≥ 2^63) ? 1 : 0`, full is `(extra ≠ 0) ? 1 : 0`. -/
def Increment.amount64 (extra : Word64) : Increment → Nat
  | .none => 0
  | .half => if 2 ^ 63 ≤ extra.toNat then 1 else 0
  | .full => if extra = 0#64 then 0 else 1

/-- Step 1 of an unsigned path (R86, R88). -/
inductive UnsignedPlan where
  | returnZero
  | invalid
  | add (i : Increment)
  deriving DecidableEq, Repr

/-- Step 1 of an unsigned path: `zero` says the magnitude is zero. A directed mode returns 0 for -0; a
nonzero negative value is invalid here only under TowardNegative and Odd (90 C1, C2). -/
def unsignedPlan (m : RoundingMode) (sign zero : Bool) : UnsignedPlan :=
  match m, sign with
  | .nearestEven, _ => .add .half
  | .nearestMaxMagnitude, _ => .add .half
  | .towardZero, false => .add .none
  | .towardNegative, false => .add .none
  | .towardPositive, false => .add .full
  | .odd, false => .add .none
  | .towardZero, true => if zero then .returnZero else .add .none
  | .towardNegative, true => if zero then .returnZero else .invalid
  | .towardPositive, true => if zero then .returnZero else .add .none
  | .odd, true => if zero then .returnZero else .invalid

/-- The signed columns of the increment table (R84, R87, R89). -/
def signedIncrement (oddNeg : OddNegIncrement) (m : RoundingMode) (sign : Bool) : Increment :=
  match m, sign with
  | .nearestEven, _ => .half
  | .nearestMaxMagnitude, _ => .half
  | .towardZero, _ => .none
  | .towardNegative, false => .none
  | .towardNegative, true => .full
  | .towardPositive, false => .full
  | .towardPositive, true => .none
  | .odd, false => .none
  | .odd, true =>
    match oddNeg with
    | .full => .full
    | .zero => .none

/-- What rounding answers: the invalid path, or the w-bit pattern and whether round bits were discarded. -/
inductive Rounded (w : Nat) where
  | invalid
  | value (z : BitVec w) (inexact : Bool)
  deriving DecidableEq, Repr

/-- Ties-to-even: under NearestEven an exact tie clears bit 0 (R84). -/
def clearTie {w : Nat} (m : RoundingMode) (tie : Bool) (z : BitVec w) : BitVec w :=
  if m = .nearestEven ∧ tie = true then z &&& ~~~1#w else z

/-- Under Odd a value with round bits gets bit 0 set (R86 to R89, step 5). -/
def forceOdd {w : Nat} (m : RoundingMode) (inexact : Bool) (z : BitVec w) : BitVec w :=
  if m = .odd ∧ inexact = true then z ||| 1#w else z

/-- Steps 3 to 6 of an unsigned path, from the rounded magnitude (R86, R88). -/
def settleUnsigned {w : Nat} (m : RoundingMode) (sign tie inexact : Bool) (magnitude : BitVec w) : Rounded w :=
  let z := clearTie m tie magnitude
  if sign = true ∧ z ≠ 0#w then .invalid else .value (forceOdd m inexact z) inexact

/-- The end of a signed path, from the rounded magnitude: negate, check for a sign mismatch (R87, R89). -/
def settleSigned {w : Nat} (m : RoundingMode) (sign tie inexact : Bool) (magnitude : BitVec w) : Rounded w :=
  let c := clearTie m tie magnitude
  let z := if sign then -c else c
  if z ≠ 0#w ∧ z.msb ≠ sign then .invalid else .value (forceOdd m inexact z) inexact

/-- The round bits of the 32-bit paths, `sig[11:0]` (R84). -/
def roundBits (sig : Word64) : BitVec 12 := sig.extractLsb' 0 12

/-- RNDU32's rounding (R86). The sum is exact (92 D22). -/
def roundU32 (m : RoundingMode) (sign : Bool) (sig : Word64) : Rounded 32 :=
  match unsignedPlan m sign (sig == 0#64) with
  | .returnZero => .value 0#32 false
  | .invalid => .invalid
  | .add i =>
    let t := sig.toNat + i.amount32
    if 2 ^ 44 ≤ t then .invalid
    else
      settleUnsigned m sign (roundBits sig == 0x800#12) (roundBits sig != 0#12)
        (BitVec.ofNat 32 (t / 2 ^ 12))

/-- RNDI32's rounding (R87). -/
def roundI32 (oddNeg : OddNegIncrement) (m : RoundingMode) (sign : Bool) (sig : Word64) : Rounded 32 :=
  let t := sig.toNat + (signedIncrement oddNeg m sign).amount32
  if 2 ^ 44 ≤ t then .invalid
  else
    settleSigned m sign (roundBits sig == 0x800#12) (roundBits sig != 0#12)
      (BitVec.ofNat 32 (t / 2 ^ 12))

/-- RNDU64's rounding (R88). -/
def roundU64 (m : RoundingMode) (sign : Bool) (sig extra : Word64) : Rounded 64 :=
  match unsignedPlan m sign (sig == 0#64 && extra == 0#64) with
  | .returnZero => .value 0#64 false
  | .invalid => .invalid
  | .add i =>
    let t := sig.toNat + i.amount64 extra
    if 2 ^ 64 ≤ t then .invalid
    else
      settleUnsigned m sign (extra == 0x8000000000000000#64) (extra != 0#64) (BitVec.ofNat 64 t)

/-- RNDI64's rounding (R89). -/
def roundI64 (oddNeg : OddNegIncrement) (m : RoundingMode) (sign : Bool) (sig extra : Word64) : Rounded 64 :=
  let t := sig.toNat + (signedIncrement oddNeg m sign).amount64 extra
  if 2 ^ 64 ≤ t then .invalid
  else
    settleSigned m sign (extra == 0x8000000000000000#64) (extra != 0#64) (BitVec.ofNat 64 t)

/-- The end of every rounding command: the invalid path (R85) raises Invalid alone and answers the policy's
sentinel; otherwise Inexact is raised if round bits were discarded and EX = 1 (R90). -/
def settleRounding {w : Nat} (s : State) (ex : Bool) (sentinel : BitVec w) (q : Rounded w) : Result :=
  match q with
  | .invalid => complete (s.raiseFlags flagInvalid) (zext sentinel)
  | .value z inexact => complete (s.raiseIf (inexact && ex) flagInexact) (zext z)

/-- RNDU32 (R86); B is ignored. -/
def execRndu32 (rm : RmField) (ex sg : Bool) (s : State) : Result :=
  settleRounding s ex (pconstU32 s.params s.policy (overflowKind sg))
    (roundU32 (s.effectiveMode rm) sg s.a64)

/-- RNDI32 (R87); B is ignored. -/
def execRndi32 (rm : RmField) (ex sg : Bool) (s : State) : Result :=
  settleRounding s ex (pconstI32 s.params s.policy (overflowKind sg))
    (roundI32 s.params.oddNegIncrement (s.effectiveMode rm) sg s.a64)

/-- RNDU64 (R88). -/
def execRndu64 (rm : RmField) (ex sg : Bool) (s : State) : Result :=
  settleRounding s ex (pconstU64 s.params s.policy (overflowKind sg))
    (roundU64 (s.effectiveMode rm) sg s.a64 s.b64)

/-- RNDI64 (R89). -/
def execRndi64 (rm : RmField) (ex sg : Bool) (s : State) : Result :=
  settleRounding s ex (pconstI64 s.params s.policy (overflowKind sg))
    (roundI64 s.params.oddNegIncrement (s.effectiveMode rm) sg s.a64 s.b64)

end Sys2Proof.Machine
end

