-- ==== Sys2Proof/Machine/WideInt128.lean ====
section
/-!
DEFINITION. The WideInt128 commands (40_wideint128 R56 to R68). None of them writes a flag (R56).
-/

namespace Sys2Proof.Machine

/-- CMPU128 (R57). -/
def execCmpu128 (s : State) : Result := complete s (zext (compareUnsigned s.a128 s.b128))

/-- ADD128 (R58): `trunc_128(a + b)`. -/
def execAdd128 (s : State) : Result := complete s (zext (s.a128 + s.b128))

/-- SUB128 (R59): `trunc_128(a - b)`. -/
def execSub128 (s : State) : Result := complete s (zext (s.a128 - s.b128))

/-- NEG128 (R60): `trunc_128(2^128 - a)`; B is ignored. -/
def execNeg128 (s : State) : Result := complete s (zext (-s.a128))

/-- SHL128 (R61): `trunc_128(a << n)`, n ≤ 127. -/
def execShl128 (n : BitVec 8) (s : State) : Result :=
  whenLegal (n.toNat ≤ 127) s (complete s (zext (s.a128 <<< n.toNat)))

/-- SHR128 (R62): `a >> n`, zeros shifted in, n ≤ 127. -/
def execShr128 (n : BitVec 8) (s : State) : Result :=
  whenLegal (n.toNat ≤ 127) s (complete s (zext (s.a128 >>> n.toNat)))

/-- MULW128 (R63): the exact 256-bit product. -/
def execMulw128 (s : State) : Result := complete s (zext s.a128 * zext s.b128)

/-- GETW128 (R64): word i, i ≤ 1. -/
def execGetw128 (n : BitVec 8) (s : State) : Result :=
  whenLegal (n.toNat ≤ 1) s (complete s (zext (word s.a128 n.toNat)))

/-- SETW128 (R65): exactly word i replaced, i ≤ 1. -/
def execSetw128 (n : BitVec 8) (s : State) : Result :=
  whenLegal (n.toNat ≤ 1) s (complete s (zext (replaceWord s.a128 n.toNat s.b64)))

/-- TOW128 (R66): the value to a two-word sequence. -/
def execTow128 (wo : WordOrder) (s : State) : Result := complete s (zext (orderWords128 wo s.a128))

/-- FROMW128 (R67): a two-word sequence to the value. -/
def execFromw128 (wo : WordOrder) (s : State) : Result := complete s (zext (orderWords128 wo s.a128))

end Sys2Proof.Machine
end

