-- ==== Sys2Proof/Machine/WideInt256.lean ====
section
/-!
DEFINITION. The WideInt256 commands (41_wideint256 R69 to R79). None of them writes a flag (R69).
-/

namespace Sys2Proof.Machine

/-- CMPU256 (R70). -/
def execCmpu256 (s : State) : Result := complete s (zext (compareUnsigned s.a s.b))

/-- ADD256 (R71): `trunc_256(a + b)`. -/
def execAdd256 (s : State) : Result := complete s (s.a + s.b)

/-- SUB256 (R72): `trunc_256(a - b)`. -/
def execSub256 (s : State) : Result := complete s (s.a - s.b)

/-- NEG256 (R73): `trunc_256(2^256 - a)`; B is ignored. -/
def execNeg256 (s : State) : Result := complete s (-s.a)

/-- SHL256 (R74): `trunc_256(a << n)`; every 8-bit n is in range. -/
def execShl256 (n : BitVec 8) (s : State) : Result := complete s (s.a <<< n.toNat)

/-- SHR256 (R75): `a >> n`, zeros shifted in. -/
def execShr256 (n : BitVec 8) (s : State) : Result := complete s (s.a >>> n.toNat)

/-- GETW256 (R76): word i, i ≤ 3. -/
def execGetw256 (n : BitVec 8) (s : State) : Result :=
  whenLegal (n.toNat ≤ 3) s (complete s (zext (word s.a n.toNat)))

/-- SETW256 (R77): exactly word i replaced, i ≤ 3. -/
def execSetw256 (n : BitVec 8) (s : State) : Result :=
  whenLegal (n.toNat ≤ 3) s (complete s (replaceWord s.a n.toNat s.b64))

/-- TOW256 (R78): the value to a four-word sequence. -/
def execTow256 (wo : WordOrder) (s : State) : Result := complete s (orderWords256 wo s.a)

/-- FROMW256 (R79): a four-word sequence to the value. -/
def execFromw256 (wo : WordOrder) (s : State) : Result := complete s (orderWords256 wo s.a)

end Sys2Proof.Machine
end

