-- ==== Sys2Proof/Machine/Dispatch.lean ====
section
/-!
DEFINITION. The dispatch: one arm for each command, one direct call of its meaning.
-/

namespace Sys2Proof.Machine

def exec (i : Instr) (s : State) : Host.Outcome State Fault Refusal :=
  match i with
  -- WideInt128 (40_wideint128)
  | .cmpu128 => Sys2Proof.Machine.execCmpu128 s
  | .add128 => Sys2Proof.Machine.execAdd128 s
  | .sub128 => Sys2Proof.Machine.execSub128 s
  | .neg128 => Sys2Proof.Machine.execNeg128 s
  | .shl128 n => Sys2Proof.Machine.execShl128 n s
  | .shr128 n => Sys2Proof.Machine.execShr128 n s
  | .mulw128 => Sys2Proof.Machine.execMulw128 s
  | .getw128 n => Sys2Proof.Machine.execGetw128 n s
  | .setw128 n => Sys2Proof.Machine.execSetw128 n s
  | .tow128 wo => Sys2Proof.Machine.execTow128 wo s
  | .fromw128 wo => Sys2Proof.Machine.execFromw128 wo s
  -- WideInt256 (41_wideint256)
  | .cmpu256 => Sys2Proof.Machine.execCmpu256 s
  | .add256 => Sys2Proof.Machine.execAdd256 s
  | .sub256 => Sys2Proof.Machine.execSub256 s
  | .neg256 => Sys2Proof.Machine.execNeg256 s
  | .shl256 n => Sys2Proof.Machine.execShl256 n s
  | .shr256 n => Sys2Proof.Machine.execShr256 n s
  | .getw256 n => Sys2Proof.Machine.execGetw256 n s
  | .setw256 n => Sys2Proof.Machine.execSetw256 n s
  | .tow256 wo => Sys2Proof.Machine.execTow256 wo s
  | .fromw256 wo => Sys2Proof.Machine.execFromw256 wo s
  -- ExtraWord (42_extraword)
  | .shrx64 n => Sys2Proof.Machine.execShrx64 n s
  | .shrx128 n => Sys2Proof.Machine.execShrx128 n s
  -- Rounding engine (43_rounding)
  | .rndu32 rm ex sg => Sys2Proof.Machine.execRndu32 rm ex sg s
  | .rndi32 rm ex sg => Sys2Proof.Machine.execRndi32 rm ex sg s
  | .rndu64 rm ex sg => Sys2Proof.Machine.execRndu64 rm ex sg s
  | .rndi64 rm ex sg => Sys2Proof.Machine.execRndi64 rm ex sg s
  -- Architecture policy (44_policy)
  | .pconstu32 k => Sys2Proof.Machine.execPconstu32 k s
  | .pconsti32 k => Sys2Proof.Machine.execPconsti32 k s
  | .pconstu64 k => Sys2Proof.Machine.execPconstu64 k s
  | .pconsti64 k => Sys2Proof.Machine.execPconsti64 k s
  | .defnan w => Sys2Proof.Machine.execDefnan w s
  | .propnan w => Sys2Proof.Machine.execPropnan w s
  | .rdpol => Sys2Proof.Machine.execRdpol s
  -- ExceptionState (45_flags)
  | .raise n => Sys2Proof.Machine.execRaise n s
  | .resetf => Sys2Proof.Machine.execResetf s
  | .rdflags => Sys2Proof.Machine.execRdflags s
  | .wrrm m => Sys2Proof.Machine.execWrrm m s
  | .rdrm => Sys2Proof.Machine.execRdrm s

end Sys2Proof.Machine
end

