-- ==== Sys2Proof/Machine/Slot.lean ====
section
/-!
DEFINITION. What the core does with the inputs of one slot: reset, nothing, or one command
(10_state R13, 70_reset R128, 60_exceptions R125).
-/

namespace Sys2Proof.Machine

/-- The command on the request ports: executed if it decodes, rejected if it is ILLEGAL
(30_encoding R52, 60_exceptions R117). -/
def issue (s : State) : Result :=
  match decode s.cmd with
  | .ok i => exec i s
  | .error _ => reject s

/-- One slot, its inputs `x` already driven. While rst is asserted the reset action runs and a command is
not executed (70_reset R127, R128); without a command the block is idle (60_exceptions R125). -/
def runSlot (x : HostInput) (s : State) : Result :=
  if x.rst then .next (resetAction s)
  else
    match x.request with
    | none => .next s
    | some _ => issue s

end Sys2Proof.Machine
end

