-- ==== Sys2Proof/Machine/Step.lean ====
section
/-!
DEFINITION. One step: the host drives the oldest pending slot and the core answers it. With nothing pending
the block waits with its state held (70_reset R129).
-/

namespace Sys2Proof.Machine

/-- One step of the block (10_state R13). -/
def step (s : State) : Host.Outcome State Fault Refusal :=
  match s.pending with
  | [] => .next s
  | x :: rest => runSlot x (s.accept x rest)

/-- The host issues the command whose bits are `w` next, on the operand buses as they are. SFCORE fetches
nothing (10_state R18): a command comes from the host, so this puts it at the head of what the host
will drive (log 1, log 13). -/
def State.withFetchWord (s : State) (nbits w : Nat) : State :=
  { s with pending := s.commandSlot (BitVec.ofNat 32 (w % 2 ^ nbits)) :: s.pending }

end Sys2Proof.Machine
end

