-- ==== Sys2Proof/Machine/Observe.lean ====
section
/-!
DEFINITION. The observation of a run (70_reset R135): the responses of its commands in order, and the final
FLAGS, RM and POLICY. A run is the host's pending slots, driven to the last.
-/

namespace Sys2Proof.Machine

/-- One response: R and STATUS when a command completes (10_state R15). -/
structure Response where
  r : Bus
  status : Status
  deriving DecidableEq, Repr

/-- What R135 lists. -/
structure Observation where
  responses : List Response
  flags : FlagSet
  rm : RoundingMode
  policy : Policy
  deriving DecidableEq, Repr

/-- The slot issues a command that R135 observes: one not issued during reset. -/
def HostInput.observed (x : HostInput) : Bool := !x.rst && x.request.isSome

/-- The next step answers an observed command. -/
def State.answersCommand (s : State) : Bool :=
  match s.pending with
  | [] => false
  | x :: _ => x.observed

/-- The responses of the next `k` steps, oldest first. -/
def responses : Nat → State → List Response
  | 0, _ => []
  | k + 1, s =>
    match step s with
    | .next t => if s.answersCommand then ⟨t.r, t.status⟩ :: responses k t else responses k t
    | .fault _ => []
    | .refused _ => []

/-- The observation of the run of everything pending; none if a step stopped, which none does. -/
def observe (s : State) : Option Observation :=
  match Host.Core.run Sys2Proof.core s.pending.length s with
  | .next (t : State) =>
    some { responses := responses s.pending.length s, flags := t.flags, rm := t.rm, policy := t.policy }
  | .fault _ => none
  | .refused _ => none

end Sys2Proof.Machine
end

