-- ==== Sys2Proof/Safety.lean ====
section
/-!
DEFINITION. The terms claims about SFCORE are stated in: safe runs, the invariant, and the spec's tables and
formulas written a second time on plain numbers, independently of the machine's definitions.
-/

namespace Sys2Proof.Safety

open Sys2Proof.Machine

/-! ## Runs -/

/-- No command of the past was rejected (93 I1: "so that 'no run fails' cannot hold for a sequence
containing one"). -/
abbrev Safe (s : State) : Prop := s.refusedMark = false

/-- The next `k` steps all answer, and no command among them is rejected. -/
def SafeRun (k : Nat) (s : State) : Prop := ∃ t : State, Host.Core.run Sys2Proof.core k s = .next t ∧ Safe t

/-- The instruction the slot makes the core execute, if any: not during reset (70_reset R128), and only a
word that decodes. -/
def executes (x : HostInput) : Option Instr :=
  if x.rst then none
  else
    match x.request with
    | none => none
    | some q =>
      match decode q.cmd with
      | .ok i => some i
      | .error _ => none

/-- The slot clears FLAGS: reset or RESETF (10_state R20). -/
def clearsFlags (x : HostInput) : Bool := x.rst || executes x == some .resetf

/-- The instruction is one that may OR into FLAGS (10_state R20 (a)). -/
def mayRaise : Instr → Bool
  | .raise _ => true
  | .rndu32 _ _ _ => true
  | .rndi32 _ _ _ => true
  | .rndu64 _ _ _ => true
  | .rndi64 _ _ _ => true
  | .propnan _ => true
  | .cmpu128 | .add128 | .sub128 | .neg128 | .shl128 _ | .shr128 _ | .mulw128 | .getw128 _
  | .setw128 _ | .tow128 _ | .fromw128 _ => false
  | .cmpu256 | .add256 | .sub256 | .neg256 | .shl256 _ | .shr256 _ | .getw256 _ | .setw256 _
  | .tow256 _ | .fromw256 _ | .shrx64 _ | .shrx128 _ => false
  | .pconstu32 _ | .pconsti32 _ | .pconstu64 _ | .pconsti64 _ | .defnan _ | .rdpol => false
  | .resetf | .rdflags | .wrrm _ | .rdrm => false

/-- The four rounding commands (60_exceptions R116). -/
def isRounding : Instr → Bool
  | .rndu32 _ _ _ => true
  | .rndi32 _ _ _ => true
  | .rndu64 _ _ _ => true
  | .rndi64 _ _ _ => true
  | .cmpu128 | .add128 | .sub128 | .neg128 | .shl128 _ | .shr128 _ | .mulw128 | .getw128 _
  | .setw128 _ | .tow128 _ | .fromw128 _ => false
  | .cmpu256 | .add256 | .sub256 | .neg256 | .shl256 _ | .shr256 _ | .getw256 _ | .setw256 _
  | .tow256 _ | .fromw256 _ | .shrx64 _ | .shrx128 _ => false
  | .pconstu32 _ | .pconsti32 _ | .pconstu64 _ | .pconsti64 _ | .defnan _ | .propnan _ | .rdpol => false
  | .raise _ | .resetf | .rdflags | .wrrm _ | .rdrm => false

/-- What every step keeps. -/
structure Inv (s : State) : Prop where
  /-- An ILLEGAL response carries no result, and the overlay mark records it (60_exceptions R117). -/
  illegal_is_silent : s.status = .illegal → s.r = 0#256 ∧ s.refusedMark = true
  /-- While rst is asserted every register holds its reset value (70_reset R127). -/
  reset_is_held : s.rst = true →
    s.flags = 0#5 ∧ s.rm = .nearestEven ∧ s.policy.code = s.cfgPolicy ∧ s.r = 0#256 ∧ s.status = .ok

/-- How many low bits of A the command reads (30_encoding R43). -/
def bitsOfA : Instr → Nat
  | .cmpu128 | .add128 | .sub128 | .mulw128 => 128
  | .neg128 | .shl128 _ | .shr128 _ | .getw128 _ | .tow128 _ | .fromw128 _ | .setw128 _ => 128
  | .cmpu256 | .add256 | .sub256 => 256
  | .neg256 | .shl256 _ | .shr256 _ | .getw256 _ | .tow256 _ | .fromw256 _ | .setw256 _ => 256
  | .shrx64 _ => 64
  | .shrx128 _ => 128
  | .rndu32 _ _ _ | .rndi32 _ _ _ | .rndu64 _ _ _ | .rndi64 _ _ _ => 64
  | .pconstu32 _ | .pconsti32 _ | .pconstu64 _ | .pconsti64 _ | .defnan _ | .rdpol => 0
  | .propnan .f16 => 16
  | .propnan .f32 => 32
  | .propnan .f64 => 64
  | .propnan .x80 => 80
  | .propnan .f128 => 128
  | .raise _ | .resetf | .rdflags | .wrrm _ | .rdrm => 0

/-- How many low bits of B the command reads (30_encoding R43). -/
def bitsOfB : Instr → Nat
  | .cmpu128 | .add128 | .sub128 | .mulw128 => 128
  | .neg128 | .shl128 _ | .shr128 _ | .getw128 _ | .tow128 _ | .fromw128 _ => 0
  | .setw128 _ | .setw256 _ => 64
  | .cmpu256 | .add256 | .sub256 => 256
  | .neg256 | .shl256 _ | .shr256 _ | .getw256 _ | .tow256 _ | .fromw256 _ => 0
  | .shrx64 _ | .shrx128 _ => 64
  | .rndu32 _ _ _ | .rndi32 _ _ _ => 0
  | .rndu64 _ _ _ | .rndi64 _ _ _ => 64
  | .pconstu32 _ | .pconsti32 _ | .pconstu64 _ | .pconsti64 _ | .defnan _ | .rdpol => 0
  | .propnan .f16 => 16
  | .propnan .f32 => 32
  | .propnan .f64 => 64
  | .propnan .x80 => 80
  | .propnan .f128 => 128
  | .raise _ | .resetf | .rdflags | .wrrm _ | .rdrm => 0

/-! ## The opcode table, transcribed from spec/opcode_table.json -/

/-- A row of spec/opcode_table.json: its match and mask, and the legal values of the fields it uses (a field
it does not use is fixed to zero by the mask). -/
structure TableRow where
  pattern : Nat
  mask : Nat
  legalRm : List Nat := [0]
  maxSel : Nat := 0
  maxN : Nat := 0

/-- spec/opcode_table.json, in its order. -/
def tableRows : List TableRow :=
  [ { pattern := 0x00000010, mask := 0xFFFFFFFF },
    { pattern := 0x00000011, mask := 0xFFFFFFFF },
    { pattern := 0x00000012, mask := 0xFFFFFFFF },
    { pattern := 0x00000013, mask := 0xFFFFFFFF },
    { pattern := 0x00000014, mask := 0xFE01FFFF, maxN := 127 },
    { pattern := 0x00000015, mask := 0xFE01FFFF, maxN := 127 },
    { pattern := 0x00000016, mask := 0xFFFFFFFF },
    { pattern := 0x00000017, mask := 0xFE01FFFF, maxN := 1 },
    { pattern := 0x00000018, mask := 0xFE01FFFF, maxN := 1 },
    { pattern := 0x00000019, mask := 0xFFFEFFFF },
    { pattern := 0x0000001A, mask := 0xFFFEFFFF } ] ++
  [ { pattern := 0x00000020, mask := 0xFFFFFFFF },
    { pattern := 0x00000021, mask := 0xFFFFFFFF },
    { pattern := 0x00000022, mask := 0xFFFFFFFF },
    { pattern := 0x00000023, mask := 0xFFFFFFFF },
    { pattern := 0x00000024, mask := 0xFE01FFFF, maxN := 255 },
    { pattern := 0x00000025, mask := 0xFE01FFFF, maxN := 255 },
    { pattern := 0x00000027, mask := 0xFE01FFFF, maxN := 3 },
    { pattern := 0x00000028, mask := 0xFE01FFFF, maxN := 3 },
    { pattern := 0x00000029, mask := 0xFFFEFFFF },
    { pattern := 0x0000002A, mask := 0xFFFEFFFF },
    { pattern := 0x00000030, mask := 0xFE01FFFF, maxN := 255 },
    { pattern := 0x00000031, mask := 0xFE01FFFF, maxN := 255 } ] ++
  [ { pattern := 0x00000040, mask := 0xFFFFE0FF, legalRm := [0, 1, 2, 3, 4, 6, 7] },
    { pattern := 0x00000041, mask := 0xFFFFE0FF, legalRm := [0, 1, 2, 3, 4, 6, 7] },
    { pattern := 0x00000042, mask := 0xFFFFE0FF, legalRm := [0, 1, 2, 3, 4, 6, 7] },
    { pattern := 0x00000043, mask := 0xFFFFE0FF, legalRm := [0, 1, 2, 3, 4, 6, 7] },
    { pattern := 0x00000050, mask := 0xFFFF1FFF, maxSel := 2 },
    { pattern := 0x00000051, mask := 0xFFFF1FFF, maxSel := 2 },
    { pattern := 0x00000052, mask := 0xFFFF1FFF, maxSel := 2 },
    { pattern := 0x00000053, mask := 0xFFFF1FFF, maxSel := 2 },
    { pattern := 0x00000054, mask := 0xFFFF1FFF, maxSel := 4 },
    { pattern := 0x00000055, mask := 0xFFFF1FFF, maxSel := 4 },
    { pattern := 0x00000056, mask := 0xFFFFFFFF } ] ++
  [ { pattern := 0x00000060, mask := 0xFE01FFFF, maxN := 31 },
    { pattern := 0x00000061, mask := 0xFFFFFFFF },
    { pattern := 0x00000062, mask := 0xFFFFFFFF },
    { pattern := 0x00000063, mask := 0xFFFFF8FF, legalRm := [0, 1, 2, 3, 4, 6] },
    { pattern := 0x00000064, mask := 0xFFFFFFFF } ]

/-- The word meets one row: its masked bits are the row's, and RM, SEL and N are in the row's range. -/
abbrev LegalWord (w : Nat) : Prop :=
  ∃ row ∈ tableRows, w &&& row.mask = row.pattern ∧ w / 2 ^ 8 % 8 ∈ row.legalRm ∧
    w / 2 ^ 13 % 8 ≤ row.maxSel ∧ w / 2 ^ 17 % 256 ≤ row.maxN

/-! ## Bus values as numbers (00_scope R8, R9) -/

/-- `u(X[127:0])`. -/
def u128 (x : Bus) : Nat := x.toNat % 2 ^ 128
/-- `u(X[63:0])`. -/
def u64 (x : Bus) : Nat := x.toNat % 2 ^ 64
/-- Word k of a value: its bits 64k+63..64k. -/
def wordOf (x k : Nat) : Nat := x / 2 ^ (64 * k) % 2 ^ 64
/-- The comparison of two unsigned values: -1, 0 or 1 (40_wideint128 R57). -/
def order (x y : Nat) : Int := if x < y then -1 else if y < x then 1 else 0
/-- -1, 0 or +1 as it stands on R (10_state R28). -/
def compareCode (c : Int) : Nat := (c % 2 ^ 64).toNat
/-! ## Encodings as numbers (30_encoding R45, R48, R49; 10_state R22, R24) -/

/-- The command word of `i`, read as a number, is `w`: every field `w` does not mention is zero. -/
abbrev EncodedAs (i : Instr) (w : Nat) : Prop := (encode i).toNat = w
/-- No command has this word: it is ILLEGAL at decode. -/
def Undecodable (w : Nat) : Prop := ∃ c : IllegalCause, decode (BitVec.ofNat 32 w) = .error c
/-- The codes of R22. -/
def modeNumber : RoundingMode → Nat
  | .nearestEven => 0
  | .towardZero => 1
  | .towardNegative => 2
  | .towardPositive => 3
  | .nearestMaxMagnitude => 4
  | .odd => 6
/-- CMD.RM of a rounding command (R48). -/
def rmNumber : RmField → Nat
  | .mode m => modeNumber m
  | .dyn => 7
/-- The constant kinds of R49. -/
def kindNumber : ConstKind → Nat
  | .posOverflow => 0
  | .negOverflow => 1
  | .nan => 2
/-- The float widths of R49. -/
def widthNumber : NanWidth → Nat
  | .f16 => 0
  | .f32 => 1
  | .f64 => 2
  | .x80 => 3
  | .f128 => 4
/-- CMD.WO (20_memory R34). -/
def orderNumber : WordOrder → Nat
  | .littleEndianOfWords => 0
  | .bigEndianOfWords => 1
/-- The policy codes of R24. -/
def policyNumber : Policy → Nat
  | .armPropagate => 0
  | .armDefaultNaN => 1
  | .x87 => 2
  | .sse => 3
/-- The word of a rounding command (R45). -/
def roundingWord (opc : Nat) (rm : RmField) (ex sg : Bool) : Nat :=
  opc + 2 ^ 8 * rmNumber rm + 2 ^ 11 * ex.toNat + 2 ^ 12 * sg.toNat

/-! ## Extra words (42_extraword) -/

/-- `if x != 0: e <- e | 1` (42_extraword R81). -/
def jammed (e x : Nat) : Nat := if x = 0 then e else e ||| 1

/-- R80's classification: the extra word e says of the discarded fraction d/q what R80 lists. -/
abbrev Classifies (e d q : Nat) : Prop :=
  (e = 0 ↔ d = 0) ∧ (0 < e ∧ e < 2 ^ 63 ↔ 0 < d ∧ 2 * d < q) ∧ (e = 2 ^ 63 ↔ 2 * d = q) ∧
    (2 ^ 63 < e ↔ q < 2 * d)

/-! ## Exact rounding of num/den (43_rounding R90) -/

/-- `(-1)^sign · mag` (R84). -/
def signedValue (sign : Bool) (mag : Nat) : Int := if sign then -(mag : Int) else mag

/-- num/den is not an integer: something is discarded. -/
abbrev Discards (num : Int) (den : Nat) : Prop := num % (den : Int) ≠ 0

/-- The textbook rounding of num/den (den > 0) to an integer: floor, ceiling, truncation, the odd
neighbour, the nearer integer with ties to even or away from zero (95_test_vectors V, step 3). -/
def roundExact (m : RoundingMode) (num : Int) (den : Nat) : Int :=
  let q := num / (den : Int)
  let r := num % (den : Int)
  if r = 0 then q
  else
    match m with
    | .towardNegative => q
    | .towardPositive => q + 1
    | .towardZero => if num < 0 then q + 1 else q
    | .odd => if q % 2 = 0 then q + 1 else q
    | .nearestEven =>
      if 2 * r < den then q else if (den : Int) < 2 * r then q + 1 else if q % 2 = 0 then q else q + 1
    | .nearestMaxMagnitude =>
      if 2 * r < den then q else if (den : Int) < 2 * r then q + 1 else if num < 0 then q else q + 1

/-- The mode a rounding command uses: the one its word names, or the one in the RM register (R83). -/
def modeInForce (rm : RmField) (register : RoundingMode) : RoundingMode :=
  match rm with
  | .mode m => m
  | .dyn => register

/-- FLAGS after a rounding command that is in range (R90 (b), (c)). -/
def flagsAfterInRange (flags : FlagSet) (inexact : Prop) [Decidable inexact] (ex : Bool) : FlagSet :=
  if inexact ∧ ex = true then flags ||| 0x01#5 else flags

/-- The overflow sentinel of the sign, zero-extended (R85). -/
def sentinel {w : Nat} (pconst : Params → Policy → ConstKind → BitVec w) (s : State) (sg : Bool) : Bus :=
  (pconst s.params s.policy (if sg = true then .negOverflow else .posOverflow)).setWidth 256

/-- RNDI under Odd with ODD_NEG_INCREMENT = Zero on a negative value, truncated magnitude t: the w-bit
pattern -t, bit 0 forced when round bits were discarded (R84, R87, R89; 93 I11). -/
def oddZeroPattern (w t : Nat) (inexact : Prop) [Decidable inexact] : Nat :=
  if inexact then (2 ^ w - t) % 2 ^ w ||| 1 else (2 ^ w - t) % 2 ^ w

/-! ## The policy tables (44_policy R94 to R96) -/

/-- R94, target U32. -/
def tableU32 : Policy → ConstKind → Nat
  | .armPropagate, .posOverflow | .armDefaultNaN, .posOverflow => 0xFFFFFFFF
  | .armPropagate, .negOverflow | .armDefaultNaN, .negOverflow => 0x00000000
  | .armPropagate, .nan | .armDefaultNaN, .nan => 0x00000000
  | .x87, _ | .sse, _ => 0xFFFFFFFF

/-- R94, target U64. -/
def tableU64 : Policy → ConstKind → Nat
  | .armPropagate, .posOverflow | .armDefaultNaN, .posOverflow => 0xFFFFFFFFFFFFFFFF
  | .armPropagate, .negOverflow | .armDefaultNaN, .negOverflow => 0x0000000000000000
  | .armPropagate, .nan | .armDefaultNaN, .nan => 0x0000000000000000
  | .x87, _ | .sse, _ => 0xFFFFFFFFFFFFFFFF

/-- R94, target I32; `none` is the OPEN entry. -/
def tableI32 : Policy → ConstKind → Option Nat
  | .armPropagate, .posOverflow | .armDefaultNaN, .posOverflow => some 0x7FFFFFFF
  | .armPropagate, .negOverflow | .armDefaultNaN, .negOverflow => some 0x80000000
  | .armPropagate, .nan | .armDefaultNaN, .nan => none
  | .x87, _ | .sse, _ => some 0x80000000

/-- R94, target I64; `none` is the OPEN entry. -/
def tableI64 : Policy → ConstKind → Option Nat
  | .armPropagate, .posOverflow | .armDefaultNaN, .posOverflow => some 0x7FFFFFFFFFFFFFFF
  | .armPropagate, .negOverflow | .armDefaultNaN, .negOverflow => some 0x8000000000000000
  | .armPropagate, .nan | .armDefaultNaN, .nan => none
  | .x87, _ | .sse, _ => some 0x8000000000000000

/-- R96: the ARM column has the sign clear, the x86 column the same pattern with the sign set. -/
def tableNaN : Policy → NanWidth → Nat
  | .armPropagate, .f16 | .armDefaultNaN, .f16 => 0x7E00
  | .armPropagate, .f32 | .armDefaultNaN, .f32 => 0x7FC00000
  | .armPropagate, .f64 | .armDefaultNaN, .f64 => 0x7FF8000000000000
  | .armPropagate, .x80 | .armDefaultNaN, .x80 => 0x7FFFC000000000000000
  | .armPropagate, .f128 | .armDefaultNaN, .f128 => 0x7FFF8000000000000000000000000000
  | .x87, .f16 | .sse, .f16 => 0xFE00
  | .x87, .f32 | .sse, .f32 => 0xFFC00000
  | .x87, .f64 | .sse, .f64 => 0xFFF8000000000000
  | .x87, .x80 | .sse, .x80 => 0xFFFFC000000000000000
  | .x87, .f128 | .sse, .f128 => 0xFFFF8000000000000000000000000000

/-- R95 and R24: `{TININESS, POLICY}` under the default tininess. -/
def tablePolicyWord : Policy → Nat
  | .armPropagate => 0
  | .armDefaultNaN => 1
  | .x87 => 6
  | .sse => 7

/-! ## The float formats on numbers (44_policy R97) -/

/-- A row of R97. -/
structure NanRow where
  width : Nat
  expLo : Nat
  expBits : Nat
  fracBits : Nat
  quietBit : Nat
  quietMask : Nat

/-- The table of R97; X80's fraction excludes the explicit integer bit 63. -/
def nanRow : NanWidth → NanRow
  | .f16 => ⟨16, 10, 5, 10, 9, 2 ^ 9⟩
  | .f32 => ⟨32, 23, 8, 23, 22, 2 ^ 22⟩
  | .f64 => ⟨64, 52, 11, 52, 51, 2 ^ 51⟩
  | .x80 => ⟨80, 64, 15, 63, 62, 2 ^ 63 + 2 ^ 62⟩
  | .f128 => ⟨128, 112, 15, 112, 111, 2 ^ 111⟩

/-- The operand of width w on a bus (R98). -/
def nanBits (w : NanWidth) (x : Bus) : Nat := x.toNat % 2 ^ (nanRow w).width

/-- The exponent field is all ones and the fraction is not zero. -/
abbrev NaNPattern (w : NanWidth) (x : Nat) : Prop :=
  x / 2 ^ (nanRow w).expLo % 2 ^ (nanRow w).expBits = 2 ^ (nanRow w).expBits - 1 ∧
    x % 2 ^ (nanRow w).fracBits ≠ 0

/-- A NaN whose quiet bit is 0. -/
abbrev SignalingPattern (w : NanWidth) (x : Nat) : Prop :=
  NaNPattern w x ∧ x / 2 ^ (nanRow w).quietBit % 2 = 0

/-- A NaN whose quiet bit is 1. -/
abbrev QuietPattern (w : NanWidth) (x : Nat) : Prop :=
  NaNPattern w x ∧ x / 2 ^ (nanRow w).quietBit % 2 = 1

/-- `quiet(x)`. -/
def quieted (w : NanWidth) (x : Nat) : Nat := x ||| (nanRow w).quietMask

/-- `mag(x)`: every bit below the sign. -/
def magnitude (w : NanWidth) (x : Nat) : Nat := x % 2 ^ ((nanRow w).width - 1)

/-- `sign(x)`. -/
def signOf (w : NanWidth) (x : Nat) : Nat := x / 2 ^ ((nanRow w).width - 1) % 2

/-- FLAGS after PROPNAN: Invalid exactly when an operand is signaling (R104). -/
def flagsAfterPropnan (w : NanWidth) (s : State) : FlagSet :=
  if SignalingPattern w (nanBits w s.a) ∨ SignalingPattern w (nanBits w s.b) then s.flags ||| 0x10#5
  else s.flags

/-- LARGERMAG of R107 on numbers. -/
def largerMag (w : NanWidth) (x y : Nat) : Nat :=
  if SignalingPattern w x ∧ ¬SignalingPattern w y then
    if NaNPattern w y then quieted w y else quieted w x
  else if SignalingPattern w y ∧ ¬SignalingPattern w x then
    if NaNPattern w x then quieted w x else quieted w y
  else if magnitude w x < magnitude w y then quieted w y
  else if magnitude w y < magnitude w x then quieted w x
  else if signOf w x = 0 ∧ signOf w y = 1 then quieted w x
  else quieted w y

end Sys2Proof.Safety
end

