-- ==== Sys2Proof/Certificates/Slice0/Obligations.lean ====
section
/-!
DEFINITION. What the provers are asked to prove of the model. Each docstring names the rule of spec/ the
statement formalises. A conclusion `exec i s = .next { s with … }` is a completion, a result and a frame at
once: every field of State not written there is as it was.
-/

open Sys2Proof Sys2Proof.Machine Sys2Proof.Safety

/-! ## Encoding (30_encoding) -/

/-- R45, R46 (92 D6: a unique encoding per command): no bit of an encoding is dropped. -/
def Obligations.DecodeInvertsEncode : Prop :=
  ∀ i : Instr, i.wf = true → decode (encode i) = .ok i

/-- R45, R46: each word has one meaning, and the decoder answers well-formed instructions only. -/
def Obligations.EncodeInvertsDecode : Prop :=
  ∀ (w : Command) (i : Instr), decode w = .ok i → i.wf = true ∧ encode i = w

/-- R46 to R51: the words that decode are exactly those that meet a row of the opcode table and its legal
RM, SEL and N ranges; the table is transcribed in Safety.lean. -/
def Obligations.DecodedWordsAreTheTablesWords : Prop :=
  ∀ w : Command, (∃ i, decode w = .ok i) ↔ LegalWord w.toNat

/-- The worked encodings under R45. -/
def Obligations.WorkedEncodingsDecode : Prop :=
  decode 0x00000011#32 = .ok .add128 ∧
  decode 0x00020014#32 = .ok (.shl128 1#8) ∧
  decode 0x00000840#32 = .ok (.rndu32 (.mode .nearestEven) true false) ∧
  decode 0x00001243#32 = .ok (.rndi64 (.mode .towardNegative) false true) ∧
  decode 0x00002055#32 = .ok (.propnan .f32) ∧
  decode 0x00200060#32 = .ok (.raise 0x10#8)

/-! ## Steps, reset and rejection (10_state, 60_exceptions, 70_reset) -/

/-- R13: a step with a command that decodes is `exec` of it, on the inputs the slot drives; and
`withFetchWord` makes the next step run exactly its word. -/
def Obligations.StepRunsTheDecodedCommand : Prop :=
  (∀ (s : State) (x : HostInput) (rest : List HostInput) (q : Request) (i : Instr),
    s.pending = x :: rest → x.rst = false → x.request = some q → decode q.cmd = .ok i →
    Sys2Proof.Machine.step s =
      Sys2Proof.Machine.exec i
        { s with
          pending := rest, rst := false, cfgPolicy := x.cfgPolicy, cmd := q.cmd, a := q.a, b := q.b }) ∧
  ∀ (s : State) (w : Command) (i : Instr), decode w = .ok i →
    Sys2Proof.Machine.step (s.withFetchWord 32 w.toNat) =
      Sys2Proof.Machine.exec i { s with rst := false, cmd := w }

/-- R117: an ILLEGAL word gives R = 0 and STATUS = ILLEGAL and leaves FLAGS, RM and POLICY unchanged. That the
sticky mark is kept and set here is the model's choice (log 8): R117 and 93 I1 only allow it. -/
def Obligations.IllegalCommandIsRejected : Prop :=
  ∀ (s : State) (x : HostInput) (rest : List HostInput) (q : Request),
    s.pending = x :: rest → x.rst = false → x.request = some q → ¬LegalWord q.cmd.toNat →
    Sys2Proof.Machine.step s =
      .next
        { s with
          pending := rest, rst := false, cfgPolicy := x.cfgPolicy, cmd := q.cmd, a := q.a, b := q.b
          r := 0#256, status := .illegal, refusedMark := true }

/-- The model's choice of log 10, from R50 and R117: a term with N out of range means what its word means, a
rejection. -/
def Obligations.IllFormedTermIsRejected : Prop :=
  ∀ (i : Instr) (s : State), i.wf = false →
    Sys2Proof.Machine.exec i s = .next { s with r := 0#256, status := .illegal, refusedMark := true }

/-- R127, R128, R131 (each slot with rst asserted is one reset step, log 4): the registers and response
ports take their reset values, POLICY samples the strap, and a command issued meanwhile is not executed,
whatever it is. -/
def Obligations.ResetSlotPerformsTheResetAction : Prop :=
  ∀ (s : State) (x : HostInput) (rest : List HostInput), s.pending = x :: rest → x.rst = true →
    ∃ t : State, Sys2Proof.Machine.step s = .next t ∧ t.flags = 0#5 ∧ t.rm.code = 0#3 ∧
      t.policy.code = x.cfgPolicy ∧ t.r = 0#256 ∧ t.status = .ok ∧ t.pending = rest ∧
      t.refusedMark = s.refusedMark ∧ t.params = s.params

/-- R30: the reset values, for every strap. -/
def Obligations.ResetValuesForEveryStrap : Prop :=
  ∀ cfg : BitVec 2, (State.resetWith cfg).flags = 0#5 ∧ (State.resetWith cfg).rm.code = 0#3 ∧
    (State.resetWith cfg).policy.code = cfg ∧ (State.resetWith cfg).r = 0#256 ∧
    (State.resetWith cfg).status = .ok

/-- R125, R129 (log 12: R and STATUS keep their last value): without a command the block holds its state;
only the inputs move. -/
def Obligations.IdleBlockHoldsItsState : Prop :=
  (∀ s : State, s.pending = [] → Sys2Proof.Machine.step s = .next s) ∧
  ∀ (s : State) (x : HostInput) (rest : List HostInput),
    s.pending = x :: rest → x.rst = false → x.request = none →
    Sys2Proof.Machine.step s = .next { s with pending := rest, rst := false, cfgPolicy := x.cfgPolicy }

/-- R115, R134: every step answers a next state, for any number of steps from any state; nothing traps,
stops or hangs. -/
def Obligations.NoRunEverStops : Prop :=
  ∀ (k : Nat) (s : State), ∃ t : State, Host.Core.run Sys2Proof.core k s = .next t

/-- R117, R127: every step keeps "an ILLEGAL response carries no result and is marked" and "while rst is
asserted every register holds its reset value". -/
def Obligations.StepKeepsInvariant : Prop :=
  ∀ s t : State, Inv s → Sys2Proof.Machine.step s = .next t → Inv t

/-- The invariant holds after reset, for every strap. -/
def Obligations.InvariantHoldsAfterReset : Prop :=
  ∀ cfg : BitVec 2, Inv (State.resetWith cfg)

/-- R20: FLAGS changes by an OR merge of RAISE, a rounding command or PROPNAN, by RESETF or reset to 0, and
in no other way. -/
def Obligations.FlagsChangeOnlyInThreeWays : Prop :=
  ∀ s t : State, Sys2Proof.Machine.step s = .next t →
    (s.pending = [] → t.flags = s.flags) ∧
    ∀ (x : HostInput) (rest : List HostInput), s.pending = x :: rest →
      (clearsFlags x = true → t.flags = 0#5) ∧
      (clearsFlags x = false →
        ∃ m : FlagSet, t.flags = s.flags ||| m ∧
          (m ≠ 0#5 → ∃ i : Instr, executes x = some i ∧ mayRaise i = true))

/-- R20: between two clears the flag set is non-decreasing, over runs of any length from any state. -/
def Obligations.FlagsNeverLostBetweenClears : Prop :=
  ∀ (k : Nat) (s t : State), Host.Core.run Sys2Proof.core k s = .next t →
    (∀ x ∈ s.pending.take k, clearsFlags x = false) → s.flags &&& t.flags = s.flags

/-- R116: Overflow, Underflow and DivideByZero (bits 2, 1 and 3) are set by RAISE with that bit and by nothing
else; Invalid (bit 4) by RAISE, a rounding command or PROPNAN; Inexact (bit 0) by RAISE or a rounding command
whose EX is 1, which then raises no Invalid. -/
def Obligations.EachFlagIsSetOnlyByItsCommands : Prop :=
  ∀ (s t : State) (x : HostInput) (rest : List HostInput),
    s.pending = x :: rest → Sys2Proof.Machine.step s = .next t →
    (∀ k, 0 < k → k < 4 → s.flags.getLsbD k = false → t.flags.getLsbD k = true →
      ∃ n : BitVec 8, executes x = some (.raise n) ∧ n.getLsbD k = true) ∧
    (s.flags.getLsbD 4 = false → t.flags.getLsbD 4 = true →
      ∃ i : Instr, executes x = some i ∧
        ((∃ n : BitVec 8, i = .raise n ∧ n.getLsbD 4 = true) ∨ isRounding i = true ∨ ∃ w, i = .propnan w)) ∧
    (s.flags.getLsbD 0 = false → t.flags.getLsbD 0 = true →
      ∃ i : Instr, executes x = some i ∧
        ((∃ n : BitVec 8, i = .raise n ∧ n.getLsbD 0 = true) ∨
          isRounding i = true ∧ (t.flags.getLsbD 4 = s.flags.getLsbD 4) ∧ ∃ m sg,
            i = .rndu32 m true sg ∨ i = .rndi32 m true sg ∨ i = .rndu64 m true sg ∨ i = .rndi64 m true sg))

/-- R23, R131: POLICY is constant between resets, whatever the strap does and whatever commands run; the
parameters of R7 (the model's own field, log 6) change never. -/
def Obligations.PolicyConstantBetweenResets : Prop :=
  ∀ (k : Nat) (s t : State), Host.Core.run Sys2Proof.core k s = .next t →
    t.params = s.params ∧ ((∀ x ∈ s.pending.take k, x.rst = false) → t.policy = s.policy)

/-- R21: RM is written by WRRM, with the mode it names, and by reset; by nothing else. -/
def Obligations.RoundingModeWrittenOnlyByWrrm : Prop :=
  ∀ (s t : State) (x : HostInput) (rest : List HostInput),
    s.pending = x :: rest → Sys2Proof.Machine.step s = .next t →
    (∀ m, executes x = some (.wrrm m) → t.rm = m) ∧
    ((∀ m, executes x ≠ some (.wrrm m)) → x.rst = false → t.rm = s.rm)

/-- R38: a command sees nothing of any later command: driving the slots `xs` gives the same state whatever
`ys` the host will drive after them. -/
def Obligations.LaterCommandsAreInvisible : Prop :=
  ∀ (xs ys : List HostInput) (s : State), ∃ t : State,
    Host.Core.run Sys2Proof.core xs.length { s with pending := xs } = .next t ∧
    Host.Core.run Sys2Proof.core xs.length { s with pending := xs ++ ys } = .next { t with pending := ys }

/-- R13, R135: the run of everything pending is observed, with exactly one response for each command issued
outside reset, and its final FLAGS, RM and POLICY are those of the state it ends in. -/
def Obligations.ObservationHasOneResponsePerCommand : Prop :=
  ∀ s : State, ∃ (o : Observation) (t : State),
    observe s = some o ∧ Host.Core.run Sys2Proof.core s.pending.length s = .next t ∧
    o.responses.length = (s.pending.filter HostInput.observed).length ∧
    o.flags = t.flags ∧ o.rm = t.rm ∧ o.policy = t.policy

/-- R117, 93 I1: a run is free of rejections exactly when every command word issued outside reset meets the
opcode table. -/
def Obligations.RunIsSafeExactlyWhenWordsAreLegal : Prop :=
  ∀ s : State, Safe s →
    (SafeRun s.pending.length s ↔
      ∀ x ∈ s.pending, ∀ q : Request, x.rst = false → x.request = some q → LegalWord q.cmd.toNat)

/-- R43: bus bits a command does not read are ignored: with other values there it does the same. -/
def Obligations.UnreadBusBitsAreIgnored : Prop :=
  ∀ (i : Instr) (s : State) (a' b' : Bus),
    a'.toNat % 2 ^ bitsOfA i = s.a.toNat % 2 ^ bitsOfA i →
    b'.toNat % 2 ^ bitsOfB i = s.b.toNat % 2 ^ bitsOfB i →
    ∃ t : State, Sys2Proof.Machine.exec i s = .next t ∧
      Sys2Proof.Machine.exec i { s with a := a', b := b' } = .next { t with a := a', b := b' }

/-! ## Wide integers (40_wideint128, 41_wideint256) -/

/-- R57: the high word decides, then the low word, which is the order of the unsigned values. -/
def Obligations.CompareHighWordFirst128 : Prop :=
  ∀ s : State, EncodedAs .cmpu128 0x10 ∧
    Sys2Proof.Machine.exec .cmpu128 s =
      .next
        { s with
          status := .ok
          r := BitVec.ofNat 256 (compareCode (
            if wordOf (u128 s.a) 1 ≠ wordOf (u128 s.b) 1 then
              (if wordOf (u128 s.a) 1 < wordOf (u128 s.b) 1 then -1 else 1)
            else if wordOf (u128 s.a) 0 ≠ wordOf (u128 s.b) 0 then
              (if wordOf (u128 s.a) 0 < wordOf (u128 s.b) 0 then -1 else 1)
            else 0)) } ∧
    Sys2Proof.Machine.exec .cmpu128 s =
      .next { s with status := .ok, r := BitVec.ofNat 256 (compareCode (order (u128 s.a) (u128 s.b))) }

/-- R70: the first differing word from v3 down decides, which is the order of the unsigned values. -/
def Obligations.CompareFirstDifferingWord256 : Prop :=
  ∀ s : State, EncodedAs .cmpu256 0x20 ∧ ∃ c : Int,
    Sys2Proof.Machine.exec .cmpu256 s =
      .next { s with status := .ok, r := BitVec.ofNat 256 (compareCode c) } ∧
    c = order s.a.toNat s.b.toNat ∧
    ((∀ i < 4, wordOf s.a.toNat i = wordOf s.b.toNat i) → c = 0) ∧
    ∀ i < 4, wordOf s.a.toNat i ≠ wordOf s.b.toNat i →
      (∀ j < 4, i < j → wordOf s.a.toNat j = wordOf s.b.toNat j) →
      c = if wordOf s.a.toNat i < wordOf s.b.toNat i then -1 else 1

/-- R58: word-wise addition with the carry of word 0, modulo 2^128. -/
def Obligations.AddRipplesCarry128 : Prop :=
  ∀ s : State, EncodedAs .add128 0x11 ∧ ∃ s0 s1 : Nat,
    s0 = wordOf (u128 s.a) 0 + wordOf (u128 s.b) 0 ∧
    s1 = (wordOf (u128 s.a) 1 + wordOf (u128 s.b) 1 + s0 / 2 ^ 64) % 2 ^ 64 ∧
    s1 * 2 ^ 64 + s0 % 2 ^ 64 = (u128 s.a + u128 s.b) % 2 ^ 128 ∧
    Sys2Proof.Machine.exec .add128 s =
      .next { s with status := .ok, r := BitVec.ofNat 256 (s1 * 2 ^ 64 + s0 % 2 ^ 64) }

/-- R71: word-wise addition with a carry through all four words, modulo 2^256. -/
def Obligations.AddRipplesCarry256 : Prop :=
  ∀ s : State, EncodedAs .add256 0x21 ∧ ∃ t0 t1 t2 t3 : Nat,
    t0 = wordOf s.a.toNat 0 + wordOf s.b.toNat 0 ∧
    t1 = wordOf s.a.toNat 1 + wordOf s.b.toNat 1 + t0 / 2 ^ 64 ∧
    t2 = wordOf s.a.toNat 2 + wordOf s.b.toNat 2 + t1 / 2 ^ 64 ∧
    t3 = wordOf s.a.toNat 3 + wordOf s.b.toNat 3 + t2 / 2 ^ 64 ∧
    t3 % 2 ^ 64 * 2 ^ 192 + t2 % 2 ^ 64 * 2 ^ 128 + t1 % 2 ^ 64 * 2 ^ 64 + t0 % 2 ^ 64 =
      (s.a.toNat + s.b.toNat) % 2 ^ 256 ∧
    Sys2Proof.Machine.exec .add256 s =
      .next
        { s with
          status := .ok
          r := BitVec.ofNat 256
            (t3 % 2 ^ 64 * 2 ^ 192 + t2 % 2 ^ 64 * 2 ^ 128 + t1 % 2 ^ 64 * 2 ^ 64 + t0 % 2 ^ 64) }

/-- R59: word-wise subtraction with the borrow of word 0, modulo 2^128. -/
def Obligations.SubRipplesBorrow128 : Prop :=
  ∀ s : State, EncodedAs .sub128 0x12 ∧ ∃ d0 br d1 : Nat,
    d0 = (2 ^ 64 + wordOf (u128 s.a) 0 - wordOf (u128 s.b) 0) % 2 ^ 64 ∧
    br = (if wordOf (u128 s.a) 0 < wordOf (u128 s.b) 0 then 1 else 0) ∧
    d1 = (2 * 2 ^ 64 + wordOf (u128 s.a) 1 - wordOf (u128 s.b) 1 - br) % 2 ^ 64 ∧
    d1 * 2 ^ 64 + d0 = (2 ^ 128 + u128 s.a - u128 s.b) % 2 ^ 128 ∧
    Sys2Proof.Machine.exec .sub128 s =
      .next { s with status := .ok, r := BitVec.ofNat 256 (d1 * 2 ^ 64 + d0) }

/-- R72: word-wise subtraction with a borrow through all four words, modulo 2^256. -/
def Obligations.SubRipplesBorrow256 : Prop :=
  ∀ s : State, EncodedAs .sub256 0x22 ∧ ∃ t0 t1 t2 t3 : Int,
    t0 = (wordOf s.a.toNat 0 : Int) - wordOf s.b.toNat 0 ∧
    t1 = (wordOf s.a.toNat 1 : Int) - wordOf s.b.toNat 1 - (if t0 < 0 then 1 else 0) ∧
    t2 = (wordOf s.a.toNat 2 : Int) - wordOf s.b.toNat 2 - (if t1 < 0 then 1 else 0) ∧
    t3 = (wordOf s.a.toNat 3 : Int) - wordOf s.b.toNat 3 - (if t2 < 0 then 1 else 0) ∧
    t3 % 2 ^ 64 * 2 ^ 192 + t2 % 2 ^ 64 * 2 ^ 128 + t1 % 2 ^ 64 * 2 ^ 64 + t0 % 2 ^ 64 =
      ((s.a.toNat : Int) - s.b.toNat) % 2 ^ 256 ∧
    Sys2Proof.Machine.exec .sub256 s =
      .next
        { s with
          status := .ok
          r := BitVec.ofInt 256
            (t3 % 2 ^ 64 * 2 ^ 192 + t2 % 2 ^ 64 * 2 ^ 128 + t1 % 2 ^ 64 * 2 ^ 64 + t0 % 2 ^ 64) }

/-- R60, R73: NEG answers 2^W - a modulo 2^W, and is SUB from zero; B is ignored. -/
def Obligations.NegateIsSubtractionFromZero : Prop :=
  ∀ s : State, EncodedAs .neg128 0x13 ∧ EncodedAs .neg256 0x23 ∧
    (∃ R : Bus, Sys2Proof.Machine.exec .neg128 s = .next { s with status := .ok, r := R } ∧
      R.toNat = (2 ^ 128 - u128 s.a) % 2 ^ 128 ∧
      wordOf R.toNat 1 =
        (2 ^ 64 - 1 - wordOf (u128 s.a) 1 + (if wordOf (u128 s.a) 0 = 0 then 1 else 0)) % 2 ^ 64 ∧
      Sys2Proof.Machine.exec .sub128 { s with a := 0#256, b := s.a } =
        .next { s with a := 0#256, b := s.a, status := .ok, r := R }) ∧
    ∃ R : Bus, Sys2Proof.Machine.exec .neg256 s = .next { s with status := .ok, r := R } ∧
      R.toNat = (2 ^ 256 - s.a.toNat) % 2 ^ 256 ∧
      Sys2Proof.Machine.exec .sub256 { s with a := 0#256, b := s.a } =
        .next { s with a := 0#256, b := s.a, status := .ok, r := R }

/-- R59, R72 corner cases: SUB(ADD(a, b), b) = a, with the ADD's result driven back on A. -/
def Obligations.SubtractUndoesAdd : Prop :=
  ∀ s : State,
    (∃ t u : State, Sys2Proof.Machine.exec .add128 s = .next t ∧
      Sys2Proof.Machine.exec .sub128 { t with a := t.r } = .next u ∧ u.r.toNat = u128 s.a) ∧
    ∃ t u : State, Sys2Proof.Machine.exec .add256 s = .next t ∧
      Sys2Proof.Machine.exec .sub256 { t with a := t.r } = .next u ∧ u.r = s.a

/-- R61, R74: SHL multiplies by 2^n modulo 2^W; bits above are discarded. -/
def Obligations.ShiftLeftMultiplies : Prop :=
  ∀ (n : BitVec 8) (s : State), EncodedAs (.shl128 n) (0x14 + 2 ^ 17 * n.toNat) ∧ EncodedAs (.shl256 n) (0x24 + 2 ^ 17 * n.toNat) ∧
    (127 < n.toNat → Undecodable (0x14 + 2 ^ 17 * n.toNat)) ∧
    (n.toNat ≤ 127 →
      Sys2Proof.Machine.exec (.shl128 n) s =
        .next { s with status := .ok, r := BitVec.ofNat 256 (u128 s.a * 2 ^ n.toNat % 2 ^ 128) }) ∧
    Sys2Proof.Machine.exec (.shl256 n) s =
      .next { s with status := .ok, r := BitVec.ofNat 256 (s.a.toNat * 2 ^ n.toNat % 2 ^ 256) }

/-- R62, R75: SHR is floor division by 2^n. -/
def Obligations.ShiftRightFloors : Prop :=
  ∀ (n : BitVec 8) (s : State), EncodedAs (.shr128 n) (0x15 + 2 ^ 17 * n.toNat) ∧ EncodedAs (.shr256 n) (0x25 + 2 ^ 17 * n.toNat) ∧
    (127 < n.toNat → Undecodable (0x15 + 2 ^ 17 * n.toNat)) ∧
    (n.toNat ≤ 127 →
      Sys2Proof.Machine.exec (.shr128 n) s =
        .next { s with status := .ok, r := BitVec.ofNat 256 (u128 s.a / 2 ^ n.toNat) }) ∧
    Sys2Proof.Machine.exec (.shr256 n) s =
      .next { s with status := .ok, r := BitVec.ofNat 256 (s.a.toNat / 2 ^ n.toNat) }

/-- R63: the product is exact, and equals the grade-school sum of the four word products. -/
def Obligations.WideningMultiplyIsExact : Prop :=
  ∀ s : State, EncodedAs .mulw128 0x16 ∧ ∃ R : Bus,
    Sys2Proof.Machine.exec .mulw128 s = .next { s with status := .ok, r := R } ∧
    R.toNat = u128 s.a * u128 s.b ∧
    R.toNat =
      wordOf (u128 s.a) 1 * wordOf (u128 s.b) 1 * 2 ^ 128 +
        (wordOf (u128 s.a) 1 * wordOf (u128 s.b) 0 + wordOf (u128 s.a) 0 * wordOf (u128 s.b) 1) * 2 ^ 64 +
        wordOf (u128 s.a) 0 * wordOf (u128 s.b) 0

/-- R64, R76: GETW answers the word the index names. -/
def Obligations.GetWordReadsTheIndexedWord : Prop :=
  ∀ (n : BitVec 8) (s : State), EncodedAs (.getw128 n) (0x17 + 2 ^ 17 * n.toNat) ∧ EncodedAs (.getw256 n) (0x27 + 2 ^ 17 * n.toNat) ∧
    (1 < n.toNat → Undecodable (0x17 + 2 ^ 17 * n.toNat)) ∧
    (3 < n.toNat → Undecodable (0x27 + 2 ^ 17 * n.toNat)) ∧
    (n.toNat ≤ 1 →
      Sys2Proof.Machine.exec (.getw128 n) s =
        .next { s with status := .ok, r := BitVec.ofNat 256 (wordOf (u128 s.a) n.toNat) }) ∧
    (n.toNat ≤ 3 →
      Sys2Proof.Machine.exec (.getw256 n) s =
        .next { s with status := .ok, r := BitVec.ofNat 256 (wordOf s.a.toNat n.toNat) })

/-- R65, R77: SETW replaces exactly the word the index names, and no other (90 C8). -/
def Obligations.SetWordReplacesOnlyTheIndexedWord : Prop :=
  ∀ (n : BitVec 8) (s : State), EncodedAs (.setw128 n) (0x18 + 2 ^ 17 * n.toNat) ∧ EncodedAs (.setw256 n) (0x28 + 2 ^ 17 * n.toNat) ∧
    (1 < n.toNat → Undecodable (0x18 + 2 ^ 17 * n.toNat)) ∧
    (3 < n.toNat → Undecodable (0x28 + 2 ^ 17 * n.toNat)) ∧
    (n.toNat ≤ 1 →
      ∃ R : Bus, Sys2Proof.Machine.exec (.setw128 n) s = .next { s with status := .ok, r := R } ∧
        R.toNat < 2 ^ 128 ∧
        ∀ k < 2, wordOf R.toNat k = if k = n.toNat then u64 s.b else wordOf (u128 s.a) k) ∧
    (n.toNat ≤ 3 →
      ∃ R : Bus, Sys2Proof.Machine.exec (.setw256 n) s = .next { s with status := .ok, r := R } ∧
        ∀ k < 4, wordOf R.toNat k = if k = n.toNat then u64 s.b else wordOf s.a.toNat k)

/-- R66, R67, R78, R79: slot k holds word k, or word K-1-k, as WO says. -/
def Obligations.SerializationOrdersWords : Prop :=
  ∀ (wo : WordOrder) (s : State),
    EncodedAs (.tow128 wo) (0x19 + 2 ^ 16 * orderNumber wo) ∧ EncodedAs (.fromw128 wo) (0x1A + 2 ^ 16 * orderNumber wo) ∧
    EncodedAs (.tow256 wo) (0x29 + 2 ^ 16 * orderNumber wo) ∧ EncodedAs (.fromw256 wo) (0x2A + 2 ^ 16 * orderNumber wo) ∧
    (∃ R : Bus, Sys2Proof.Machine.exec (.tow128 wo) s = .next { s with status := .ok, r := R } ∧
      Sys2Proof.Machine.exec (.fromw128 wo) s = .next { s with status := .ok, r := R } ∧
      R.toNat < 2 ^ 128 ∧
      ∀ k < 2, wordOf R.toNat k =
        wordOf (u128 s.a) (if wo = .littleEndianOfWords then k else 1 - k)) ∧
    ∃ R : Bus, Sys2Proof.Machine.exec (.tow256 wo) s = .next { s with status := .ok, r := R } ∧
      Sys2Proof.Machine.exec (.fromw256 wo) s = .next { s with status := .ok, r := R } ∧
      ∀ k < 4, wordOf R.toNat k =
        wordOf s.a.toNat (if wo = .littleEndianOfWords then k else 3 - k)

/-- R67, R79 corner cases: FROMW(TOW(a)) = a and TOW(FROMW(s)) = s in both word orders. -/
def Obligations.SerializationRoundTrips : Prop :=
  ∀ (wo : WordOrder) (s : State),
    (∃ t u : State, Sys2Proof.Machine.exec (.tow128 wo) s = .next t ∧
      Sys2Proof.Machine.exec (.fromw128 wo) { t with a := t.r } = .next u ∧ u.r.toNat = u128 s.a) ∧
    (∃ t u : State, Sys2Proof.Machine.exec (.tow256 wo) s = .next t ∧
      Sys2Proof.Machine.exec (.fromw256 wo) { t with a := t.r } = .next u ∧ u.r = s.a) ∧
    ∃ t u : State, Sys2Proof.Machine.exec (.fromw256 wo) s = .next t ∧
      Sys2Proof.Machine.exec (.tow256 wo) { t with a := t.r } = .next u ∧ u.r = s.a

/-! ## ExtraWord (42_extraword) -/

/-- R81, case by case on n. -/
def Obligations.ShiftJam64ByDistance : Prop :=
  ∀ (n : BitVec 8) (s : State), EncodedAs (.shrx64 n) (0x30 + 2 ^ 17 * n.toNat) ∧ ∃ v' e : Nat,
    v' < 2 ^ 64 ∧ e < 2 ^ 64 ∧
    Sys2Proof.Machine.exec (.shrx64 n) s =
      .next { s with status := .ok, r := BitVec.ofNat 256 (e * 2 ^ 64 + v') } ∧
    (n.toNat = 0 → v' = u64 s.a ∧ e = u64 s.b) ∧
    (0 < n.toNat → n.toNat < 64 →
      v' = u64 s.a / 2 ^ n.toNat ∧ e = jammed (u64 s.a * 2 ^ (64 - n.toNat) % 2 ^ 64) (u64 s.b)) ∧
    (n.toNat = 64 → v' = 0 ∧ e = jammed (u64 s.a) (u64 s.b)) ∧
    (64 < n.toNat → v' = 0 ∧ e = jammed (if u64 s.a ≠ 0 then 1 else 0) (u64 s.b))

/-- R82, case by case on n; v' is floor(v / 2^n) in all of them. -/
def Obligations.ShiftJam128ByDistance : Prop :=
  ∀ (n : BitVec 8) (s : State), EncodedAs (.shrx128 n) (0x31 + 2 ^ 17 * n.toNat) ∧ ∃ v' e : Nat,
    v' = u128 s.a / 2 ^ n.toNat ∧ e < 2 ^ 64 ∧
    Sys2Proof.Machine.exec (.shrx128 n) s =
      .next { s with status := .ok, r := BitVec.ofNat 256 (e * 2 ^ 128 + v') } ∧
    (n.toNat = 0 → e = u64 s.b) ∧
    (0 < n.toNat → n.toNat < 64 →
      e = jammed (wordOf (u128 s.a) 0 * 2 ^ (64 - n.toNat) % 2 ^ 64) (u64 s.b)) ∧
    (n.toNat = 64 → e = jammed (wordOf (u128 s.a) 0) (u64 s.b)) ∧
    (64 < n.toNat → n.toNat < 128 →
      e = jammed (wordOf (u128 s.a) 1 * 2 ^ (128 - n.toNat) % 2 ^ 64)
        (u64 s.b ||| wordOf (u128 s.a) 0)) ∧
    (n.toNat = 128 → e = jammed (wordOf (u128 s.a) 1) (u64 s.b ||| wordOf (u128 s.a) 0)) ∧
    (128 < n.toNat →
      e = jammed (if wordOf (u128 s.a) 1 ≠ 0 then 1 else 0) (u64 s.b ||| wordOf (u128 s.a) 0))

/-- R80: if the incoming extra word classifies the discarded fraction d/q of the primary v, then of the
exact value (v + d/q) / 2^n the primary answered is the floor and the extra word classifies the rest. -/
def Obligations.ExtraWordClassifiesTheDiscardedPart : Prop :=
  ∀ (n : BitVec 8) (s : State) (d q : Nat), d < q → Classifies (u64 s.b) d q →
    (∃ R : Bus, Sys2Proof.Machine.exec (.shrx64 n) s = .next { s with status := .ok, r := R } ∧
      R.toNat % 2 ^ 64 = (u64 s.a * q + d) / (q * 2 ^ n.toNat) ∧
      Classifies (R.toNat / 2 ^ 64) ((u64 s.a * q + d) % (q * 2 ^ n.toNat)) (q * 2 ^ n.toNat)) ∧
    ∃ R : Bus, Sys2Proof.Machine.exec (.shrx128 n) s = .next { s with status := .ok, r := R } ∧
      R.toNat % 2 ^ 128 = (u128 s.a * q + d) / (q * 2 ^ n.toNat) ∧
      Classifies (R.toNat / 2 ^ 128) ((u128 s.a * q + d) % (q * 2 ^ n.toNat)) (q * 2 ^ n.toNat)

/-! ## The rounding engine (43_rounding) -/

/-- R86 with R83, R85, R90: RNDU32 answers the exact rounding of V in the mode in force, and Inexact if
asked; out of range, the sentinel and Invalid alone. -/
def Obligations.RoundToU32IsExact : Prop :=
  ∀ (rm : RmField) (ex sg : Bool) (s : State),
    let v := signedValue sg (u64 s.a)
    let q := roundExact (modeInForce rm s.rm) v (2 ^ 12)
    EncodedAs (.rndu32 rm ex sg) (roundingWord 0x40 rm ex sg) ∧
    (0 ≤ q ∧ q < 2 ^ 32 →
      Sys2Proof.Machine.exec (.rndu32 rm ex sg) s =
        .next
          { s with
            status := .ok, r := BitVec.ofInt 256 q
            flags := flagsAfterInRange s.flags (Discards v (2 ^ 12)) ex }) ∧
    (¬(0 ≤ q ∧ q < 2 ^ 32) →
      Sys2Proof.Machine.exec (.rndu32 rm ex sg) s =
        .next { s with status := .ok, r := sentinel pconstU32 s sg, flags := s.flags ||| 0x10#5 })

/-- R87 with R83, R85, R90: RNDI32 answers the exact rounding of V in 32-bit two's complement, for every
mode and sign, Odd of a negative value with ODD_NEG_INCREMENT = Full. -/
def Obligations.RoundToI32IsExact : Prop :=
  ∀ (rm : RmField) (ex sg : Bool) (s : State),
    let v := signedValue sg (u64 s.a)
    let q := roundExact (modeInForce rm s.rm) v (2 ^ 12)
    (modeInForce rm s.rm = .odd → sg = true → s.params.oddNegIncrement = .full) →
    EncodedAs (.rndi32 rm ex sg) (roundingWord 0x41 rm ex sg) ∧
    (-2 ^ 31 ≤ q ∧ q < 2 ^ 31 →
      Sys2Proof.Machine.exec (.rndi32 rm ex sg) s =
        .next
          { s with
            status := .ok, r := BitVec.ofInt 256 (q % 2 ^ 32)
            flags := flagsAfterInRange s.flags (Discards v (2 ^ 12)) ex }) ∧
    (¬(-2 ^ 31 ≤ q ∧ q < 2 ^ 31) →
      Sys2Proof.Machine.exec (.rndi32 rm ex sg) s =
        .next { s with status := .ok, r := sentinel pconstI32 s sg, flags := s.flags ||| 0x10#5 })

/-- R88 with R83, R85, R90: RNDU64 answers the exact rounding of sig + extra / 2^64. -/
def Obligations.RoundToU64IsExact : Prop :=
  ∀ (rm : RmField) (ex sg : Bool) (s : State),
    let v := signedValue sg (u64 s.a * 2 ^ 64 + u64 s.b)
    let q := roundExact (modeInForce rm s.rm) v (2 ^ 64)
    EncodedAs (.rndu64 rm ex sg) (roundingWord 0x42 rm ex sg) ∧
    (0 ≤ q ∧ q < 2 ^ 64 →
      Sys2Proof.Machine.exec (.rndu64 rm ex sg) s =
        .next
          { s with
            status := .ok, r := BitVec.ofInt 256 q
            flags := flagsAfterInRange s.flags (Discards v (2 ^ 64)) ex }) ∧
    (¬(0 ≤ q ∧ q < 2 ^ 64) →
      Sys2Proof.Machine.exec (.rndu64 rm ex sg) s =
        .next { s with status := .ok, r := sentinel pconstU64 s sg, flags := s.flags ||| 0x10#5 })

/-- R89 with R83, R85, R90: RNDI64 answers the exact rounding of ±(sig + extra / 2^64) in 64-bit two's
complement, Odd of a negative value with ODD_NEG_INCREMENT = Full. -/
def Obligations.RoundToI64IsExact : Prop :=
  ∀ (rm : RmField) (ex sg : Bool) (s : State),
    let v := signedValue sg (u64 s.a * 2 ^ 64 + u64 s.b)
    let q := roundExact (modeInForce rm s.rm) v (2 ^ 64)
    (modeInForce rm s.rm = .odd → sg = true → s.params.oddNegIncrement = .full) →
    EncodedAs (.rndi64 rm ex sg) (roundingWord 0x43 rm ex sg) ∧
    (-2 ^ 63 ≤ q ∧ q < 2 ^ 63 →
      Sys2Proof.Machine.exec (.rndi64 rm ex sg) s =
        .next
          { s with
            status := .ok, r := BitVec.ofInt 256 (q % 2 ^ 64)
            flags := flagsAfterInRange s.flags (Discards v (2 ^ 64)) ex }) ∧
    (¬(-2 ^ 63 ≤ q ∧ q < 2 ^ 63) →
      Sys2Proof.Machine.exec (.rndi64 rm ex sg) s =
        .next { s with status := .ok, r := sentinel pconstI64 s sg, flags := s.flags ||| 0x10#5 })

/-- R84, R87, R89 with ODD_NEG_INCREMENT = Zero (93 I11): under Odd a negative value is truncated, negated, and
bit 0 of the pattern forced, which is not round-to-odd. -/
def Obligations.SignedOddWithZeroIncrement : Prop :=
  ∀ (rm : RmField) (ex : Bool) (s : State),
    s.params.oddNegIncrement = .zero → modeInForce rm s.rm = .odd →
    (u64 s.a / 2 ^ 12 ≤ 2 ^ 31 →
      Sys2Proof.Machine.exec (.rndi32 rm ex true) s =
        .next
          { s with
            status := .ok
            r := BitVec.ofNat 256 (oddZeroPattern 32 (u64 s.a / 2 ^ 12) (u64 s.a % 2 ^ 12 ≠ 0))
            flags := flagsAfterInRange s.flags (u64 s.a % 2 ^ 12 ≠ 0) ex }) ∧
    (2 ^ 31 < u64 s.a / 2 ^ 12 →
      Sys2Proof.Machine.exec (.rndi32 rm ex true) s =
        .next { s with status := .ok, r := sentinel pconstI32 s true, flags := s.flags ||| 0x10#5 }) ∧
    (u64 s.a ≤ 2 ^ 63 →
      Sys2Proof.Machine.exec (.rndi64 rm ex true) s =
        .next
          { s with
            status := .ok
            r := BitVec.ofNat 256 (oddZeroPattern 64 (u64 s.a) (u64 s.b ≠ 0))
            flags := flagsAfterInRange s.flags (u64 s.b ≠ 0) ex }) ∧
    (2 ^ 63 < u64 s.a →
      Sys2Proof.Machine.exec (.rndi64 rm ex true) s =
        .next { s with status := .ok, r := sentinel pconstI64 s true, flags := s.flags ||| 0x10#5 })

/-- R91: RNDU64.ODD on (sig, extra) and then RNDU32 or RNDI32 in any mode gives what rounding the exact value
±(sig + extra / 2^64) / 2^12 once gives. -/
def Obligations.RoundToOddAvoidsDoubleRounding : Prop :=
  ∀ (m : RoundingMode) (ex sg : Bool) (s : State),
    let v := signedValue sg (u64 s.a * 2 ^ 64 + u64 s.b)
    let q := roundExact m v (2 ^ 76)
    ∃ t : State, Sys2Proof.Machine.exec (.rndu64 (.mode .odd) false false) s = .next t ∧ t.flags = s.flags ∧
      (0 ≤ q ∧ q < 2 ^ 32 →
        Sys2Proof.Machine.exec (.rndu32 (.mode m) ex sg) { t with a := t.r } =
          .next
            { t with
              a := t.r, status := .ok, r := BitVec.ofInt 256 q
              flags := flagsAfterInRange s.flags (Discards v (2 ^ 76)) ex }) ∧
      (¬(0 ≤ q ∧ q < 2 ^ 32) →
        Sys2Proof.Machine.exec (.rndu32 (.mode m) ex sg) { t with a := t.r } =
          .next
            { t with a := t.r, status := .ok, r := sentinel pconstU32 s sg, flags := s.flags ||| 0x10#5 }) ∧
      ((m = .odd → sg = true → s.params.oddNegIncrement = .full) → -2 ^ 31 ≤ q ∧ q < 2 ^ 31 →
        Sys2Proof.Machine.exec (.rndi32 (.mode m) ex sg) { t with a := t.r } =
          .next
            { t with
              a := t.r, status := .ok, r := BitVec.ofInt 256 (q % 2 ^ 32)
              flags := flagsAfterInRange s.flags (Discards v (2 ^ 76)) ex }) ∧
      ((m = .odd → sg = true → s.params.oddNegIncrement = .full) → ¬(-2 ^ 31 ≤ q ∧ q < 2 ^ 31) →
        Sys2Proof.Machine.exec (.rndi32 (.mode m) ex sg) { t with a := t.r } =
          .next
            { t with a := t.r, status := .ok, r := sentinel pconstI32 s sg, flags := s.flags ||| 0x10#5 })

/-- R92: the result of a rounding command and the bits it ORs in depend only on the word, A[63:0], B[63:0] in
the 64-bit paths, POLICY and, under DYN, RM (and the parameters); never on the prior FLAGS. -/
def Obligations.RoundingDependsOnlyOnItsInputs : Prop :=
  ∀ (rm : RmField) (ex sg : Bool) (s s' : State),
    u64 s.a = u64 s'.a → s.policy = s'.policy → s.params = s'.params → (rm = .dyn → s.rm = s'.rm) →
    (∃ (R : Bus) (m : FlagSet),
      Sys2Proof.Machine.exec (.rndu32 rm ex sg) s =
        .next { s with status := .ok, r := R, flags := s.flags ||| m } ∧
      Sys2Proof.Machine.exec (.rndu32 rm ex sg) s' =
        .next { s' with status := .ok, r := R, flags := s'.flags ||| m }) ∧
    (∃ (R : Bus) (m : FlagSet),
      Sys2Proof.Machine.exec (.rndi32 rm ex sg) s =
        .next { s with status := .ok, r := R, flags := s.flags ||| m } ∧
      Sys2Proof.Machine.exec (.rndi32 rm ex sg) s' =
        .next { s' with status := .ok, r := R, flags := s'.flags ||| m }) ∧
    (u64 s.b = u64 s'.b →
      (∃ (R : Bus) (m : FlagSet),
        Sys2Proof.Machine.exec (.rndu64 rm ex sg) s =
          .next { s with status := .ok, r := R, flags := s.flags ||| m } ∧
        Sys2Proof.Machine.exec (.rndu64 rm ex sg) s' =
          .next { s' with status := .ok, r := R, flags := s'.flags ||| m }) ∧
      ∃ (R : Bus) (m : FlagSet),
        Sys2Proof.Machine.exec (.rndi64 rm ex sg) s =
          .next { s with status := .ok, r := R, flags := s.flags ||| m } ∧
        Sys2Proof.Machine.exec (.rndi64 rm ex sg) s' =
          .next { s' with status := .ok, r := R, flags := s'.flags ||| m })

/-- R132 with R83, R113: a DYN rounding command right after WRRM is the rounding command that names the mode
written. -/
def Obligations.DynamicModeIsTheModeJustWritten : Prop :=
  ∀ (m : RoundingMode) (ex sg : Bool) (a b : Bus) (s : State), ∃ t : State,
    Sys2Proof.Machine.exec (.wrrm m) s = .next t ∧
    Sys2Proof.Machine.exec (.rndu32 .dyn ex sg) { t with a := a, b := b } =
      Sys2Proof.Machine.exec (.rndu32 (.mode m) ex sg) { t with a := a, b := b } ∧
    Sys2Proof.Machine.exec (.rndi32 .dyn ex sg) { t with a := a, b := b } =
      Sys2Proof.Machine.exec (.rndi32 (.mode m) ex sg) { t with a := a, b := b } ∧
    Sys2Proof.Machine.exec (.rndu64 .dyn ex sg) { t with a := a, b := b } =
      Sys2Proof.Machine.exec (.rndu64 (.mode m) ex sg) { t with a := a, b := b } ∧
    Sys2Proof.Machine.exec (.rndi64 .dyn ex sg) { t with a := a, b := b } =
      Sys2Proof.Machine.exec (.rndi64 (.mode m) ex sg) { t with a := a, b := b }

/-! ## The architecture policy (44_policy) -/

/-- R99, R101: the unsigned conversion constants, those of the table of R94 under the default parameters; a
SEL of 3 or more is ILLEGAL. -/
def Obligations.UnsignedConversionConstants : Prop :=
  (∀ (k : ConstKind) (s : State),
    EncodedAs (.pconstu32 k) (0x50 + 2 ^ 13 * kindNumber k) ∧
    EncodedAs (.pconstu64 k) (0x52 + 2 ^ 13 * kindNumber k) ∧
    Sys2Proof.Machine.exec (.pconstu32 k) s =
      .next { s with status := .ok, r := (pconstU32 s.params s.policy k).setWidth 256 } ∧
    (s.params = .default → (pconstU32 s.params s.policy k).toNat = tableU32 s.policy k) ∧
    Sys2Proof.Machine.exec (.pconstu64 k) s =
      .next { s with status := .ok, r := (pconstU64 s.params s.policy k).setWidth 256 } ∧
    (s.params = .default → (pconstU64 s.params s.policy k).toNat = tableU64 s.policy k)) ∧
  ∀ sel : Nat, 3 ≤ sel → sel < 8 → Undecodable (0x50 + 2 ^ 13 * sel) ∧ Undecodable (0x52 + 2 ^ 13 * sel)

/-- R100, R102: the signed conversion constants of R94, not sign-extended; the OPEN ARM entries are one fixed
element of {0, signed minimum, signed maximum}, whichever it is; a SEL of 3 or more is ILLEGAL. -/
def Obligations.SignedConversionConstants : Prop :=
  (∃ c32 c64 : Nat, c32 ∈ [0, 0x80000000, 0x7FFFFFFF] ∧ c64 ∈ [0, 0x8000000000000000, 0x7FFFFFFFFFFFFFFF] ∧
    ∀ (k : ConstKind) (s : State),
      EncodedAs (.pconsti32 k) (0x51 + 2 ^ 13 * kindNumber k) ∧
      EncodedAs (.pconsti64 k) (0x53 + 2 ^ 13 * kindNumber k) ∧
      Sys2Proof.Machine.exec (.pconsti32 k) s =
        .next { s with status := .ok, r := (pconstI32 s.params s.policy k).setWidth 256 } ∧
      (s.params = .default → (pconstI32 s.params s.policy k).toNat = (tableI32 s.policy k).getD c32) ∧
      Sys2Proof.Machine.exec (.pconsti64 k) s =
        .next { s with status := .ok, r := (pconstI64 s.params s.policy k).setWidth 256 } ∧
      (s.params = .default → (pconstI64 s.params s.policy k).toNat = (tableI64 s.policy k).getD c64)) ∧
  ∀ sel : Nat, 3 ≤ sel → sel < 8 → Undecodable (0x51 + 2 ^ 13 * sel) ∧ Undecodable (0x53 + 2 ^ 13 * sel)

/-- R103: the default NaN of the width, that of the table of R96 under the default parameters; a SEL of 5 or
more is ILLEGAL. -/
def Obligations.DefaultNaNByWidth : Prop :=
  (∀ (w : NanWidth) (s : State),
    EncodedAs (.defnan w) (0x54 + 2 ^ 13 * widthNumber w) ∧
    Sys2Proof.Machine.exec (.defnan w) s =
      .next { s with status := .ok, r := (defaultNaN s.params s.policy w).setWidth 256 } ∧
    (defaultNaN s.params s.policy w).toNat < 2 ^ (nanRow w).width ∧
    (s.params = .default → (defaultNaN s.params s.policy w).toNat = tableNaN s.policy w)) ∧
  ∀ sel : Nat, 5 ≤ sel → sel < 8 → Undecodable (0x54 + 2 ^ 13 * sel)

/-- R104: PROPNAN raises Invalid exactly when an operand is signaling, under every policy, raises nothing else,
and its result is a quiet NaN whenever an operand is a NaN (the last under the default NaN patterns); a SEL of 5
or more is ILLEGAL. -/
def Obligations.PropagationRaisesInvalidForSignaling : Prop :=
  (∀ (w : NanWidth) (s : State), EncodedAs (.propnan w) (0x55 + 2 ^ 13 * widthNumber w) ∧ ∃ R : Bus,
    Sys2Proof.Machine.exec (.propnan w) s =
      .next { s with status := .ok, r := R, flags := flagsAfterPropnan w s } ∧
    R.toNat < 2 ^ (nanRow w).width ∧
    (s.params.arm = .default → NaNPattern w (nanBits w s.a) ∨ NaNPattern w (nanBits w s.b) →
      QuietPattern w R.toNat)) ∧
  ∀ sel : Nat, 5 ≤ sel → sel < 8 → Undecodable (0x55 + 2 ^ 13 * sel)

/-- R105, R106: under ARM-VFPv2-propagate a signaling NaN wins, the first operand first, then the first NaN,
quieted; under ARM-VFPv2-default-NaN the default pattern, whatever the operands. -/
def Obligations.ArmPropagationSelects : Prop :=
  ∀ (w : NanWidth) (s : State),
    let x := nanBits w s.a
    let y := nanBits w s.b
    (s.policy = .armPropagate →
      Sys2Proof.Machine.exec (.propnan w) s =
        .next
          { s with
            status := .ok, flags := flagsAfterPropnan w s
            r := BitVec.ofNat 256
              (if SignalingPattern w x then quieted w x
                else if SignalingPattern w y then quieted w y
                else if NaNPattern w x then quieted w x
                else quieted w y) }) ∧
    (s.policy = .armDefaultNaN →
      Sys2Proof.Machine.exec (.propnan w) s =
        .next
          { s with
            status := .ok, flags := flagsAfterPropnan w s
            r := (defaultNaN s.params .armDefaultNaN w).setWidth 256 }) ∧
    (s.params.arm = .default → (defaultNaN s.params .armDefaultNaN w).toNat = tableNaN .armDefaultNaN w)

/-- R107, R108, R104: x86-x87 selects by LARGERMAG; x86-SSE does so under SSE_NAN_RULE = LargerMagnitude, and
answers the first NaN quieted under FirstNaN. -/
def Obligations.X86PropagationSelects : Prop :=
  ∀ (w : NanWidth) (s : State),
    let x := nanBits w s.a
    let y := nanBits w s.b
    (s.policy = .x87 ∨ s.policy = .sse ∧ s.params.sseNanRule = .largerMagnitude →
      Sys2Proof.Machine.exec (.propnan w) s =
        .next
          { s with
            status := .ok, flags := flagsAfterPropnan w s, r := BitVec.ofNat 256 (largerMag w x y) }) ∧
    (s.policy = .sse → s.params.sseNanRule = .firstNaN →
      Sys2Proof.Machine.exec (.propnan w) s =
        .next
          { s with
            status := .ok, flags := flagsAfterPropnan w s
            r := BitVec.ofNat 256 (if NaNPattern w x then quieted w x else quieted w y) })

/-- R107 (TSF §8, 95 L1.7): under x86-x87 swapping the operands changes neither the result nor the flags. -/
def Obligations.X87PropagationIsSymmetric : Prop :=
  ∀ (w : NanWidth) (s : State), s.policy = .x87 → ∃ t : State,
    Sys2Proof.Machine.exec (.propnan w) s = .next t ∧
    Sys2Proof.Machine.exec (.propnan w) { s with a := s.b, b := s.a } = .next { t with a := s.b, b := s.a }

/-- R109: `{TININESS[POLICY], POLICY}`, R[1:0] and R[2]; the numbers are those of R95 by default. -/
def Obligations.PolicyReadBack : Prop :=
  ∀ s : State, EncodedAs .rdpol 0x56 ∧ ∃ R : Bus,
    Sys2Proof.Machine.exec .rdpol s = .next { s with status := .ok, r := R } ∧
    R.toNat = (if tininess s.params s.policy = .afterRounding then 4 else 0) + policyNumber s.policy ∧
    (s.params = .default → R.toNat = tablePolicyWord s.policy)

/-! ## ExceptionState (45_flags) -/

/-- R110: RAISE sets the bits of its mask and clears none; doing it again changes nothing more; a mask of 32 or
more is ILLEGAL. -/
def Obligations.RaiseMergesFlags : Prop :=
  ∀ (n : BitVec 8) (s : State), EncodedAs (.raise n) (0x60 + 2 ^ 17 * n.toNat) ∧
    (31 < n.toNat → Undecodable (0x60 + 2 ^ 17 * n.toNat)) ∧
    (n.toNat ≤ 31 → ∃ f : FlagSet,
      Sys2Proof.Machine.exec (.raise n) s = .next { s with status := .ok, r := 0#256, flags := f } ∧
      (∀ k < 5, f.getLsbD k = (s.flags.getLsbD k || n.getLsbD k)) ∧
      Sys2Proof.Machine.exec (.raise n) { s with flags := f } =
        .next { s with status := .ok, r := 0#256, flags := f })

/-- R111, R112: RESETF clears all five flags and keeps RM and POLICY; RDFLAGS answers FLAGS and clears
nothing. -/
def Obligations.FlagsReadAndReset : Prop :=
  ∀ s : State, EncodedAs .resetf 0x61 ∧ EncodedAs .rdflags 0x62 ∧
    (∃ t : State, Sys2Proof.Machine.exec .resetf s = .next t ∧
      t = { s with status := .ok, r := 0#256, flags := 0#5 }) ∧
    ∃ R : Bus, Sys2Proof.Machine.exec .rdflags s = .next { s with status := .ok, r := R } ∧
      R.toNat = s.flags.toNat

/-- R113, R114: WRRM stores the mode and RDRM answers its code, which is never 5 or 7; WRRM of the codes 5 and 7
is ILLEGAL. -/
def Obligations.RoundingModeWriteAndRead : Prop :=
  (∀ (m : RoundingMode) (s : State),
    EncodedAs (.wrrm m) (0x63 + 2 ^ 8 * modeNumber m) ∧ EncodedAs .rdrm 0x64 ∧
    (∃ t u : State, Sys2Proof.Machine.exec (.wrrm m) s = .next t ∧
      t = { s with status := .ok, r := 0#256, rm := m } ∧
      Sys2Proof.Machine.exec .rdrm t = .next u ∧ u.r.toNat = modeNumber m) ∧
    ∃ R : Bus, Sys2Proof.Machine.exec .rdrm s = .next { s with status := .ok, r := R } ∧
      R.toNat = modeNumber s.rm ∧ R.toNat ≠ 5 ∧ R.toNat ≠ 7) ∧
  Undecodable 0x563 ∧ Undecodable 0x763
end

