-- ==== Sys2Proof/Laws/Decode.lean ====
section
/-!
SUPPORT. The codes read back, and the fields of a packed word are the values packed.
-/

namespace Sys2Proof

/-! ## Codes -/

@[simp] theorem RoundingMode.ofCode_code (m : RoundingMode) : RoundingMode.ofCode m.code = some m := by
  cases m <;> rfl

@[simp] theorem RmField.ofCode_code (f : RmField) : RmField.ofCode f.code = some f := by
  rcases f with m | _
  · cases m <;> rfl
  · rfl

@[simp] theorem ConstKind.ofCode_code (k : ConstKind) : ConstKind.ofCode k.code = some k := by
  cases k <;> rfl

@[simp] theorem NanWidth.ofCode_code (w : NanWidth) : NanWidth.ofCode w.code = some w := by
  cases w <;> rfl

@[simp] theorem WordOrder.ofBit_bit (o : WordOrder) : WordOrder.ofBit o.bit = o := by
  cases o <;> rfl

@[simp] theorem WordOrder.bit_ofBit (b : Bool) : (WordOrder.ofBit b).bit = b := by
  cases b <;> rfl

@[simp] theorem Opcode.ofCode_code (o : Opcode) : Opcode.ofCode o.code = some o := by
  cases o <;> rfl

theorem Opcode.code_of_ofCode {c : BitVec 8} {o : Opcode} (h : Opcode.ofCode c = some o) : o.code = c := by
  have := List.find?_some h
  simpa using this

theorem RoundingMode.code_of_ofCode {c : BitVec 3} {m : RoundingMode}
    (h : RoundingMode.ofCode c = some m) : m.code = c := by
  revert c; cases m <;> decide

theorem ConstKind.code_of_ofCode {c : BitVec 3} {k : ConstKind}
    (h : ConstKind.ofCode c = some k) : k.code = c := by
  revert c; cases k <;> decide

theorem NanWidth.code_of_ofCode {c : BitVec 3} {w : NanWidth}
    (h : NanWidth.ofCode c = some w) : w.code = c := by
  revert c; cases w <;> decide

theorem RmField.code_of_ofCode {c : BitVec 3} {f : RmField}
    (h : RmField.ofCode c = some f) : f.code = c := by
  revert c
  rcases f with m | _
  · cases m <;> decide
  · decide

/-! ## Fields of a packed word (30_encoding R42, R45) -/

section
variable (opc : BitVec 8) (rm : BitVec 3) (ex sg : Bool) (sel : BitVec 3) (wo : Bool) (n : BitVec 8)

@[simp] theorem fieldOpc_packWord : fieldOpc (packWord opc rm ex sg sel wo n) = opc := by
  apply BitVec.eq_of_getLsbD_eq
  intro i hi
  interval_cases i <;> simp [fieldOpc, packWord]

@[simp] theorem fieldRm_packWord : fieldRm (packWord opc rm ex sg sel wo n) = rm := by
  apply BitVec.eq_of_getLsbD_eq
  intro i hi
  interval_cases i <;> simp [fieldRm, packWord]

@[simp] theorem fieldEx_packWord : fieldEx (packWord opc rm ex sg sel wo n) = ex := by
  simp [fieldEx, packWord]

@[simp] theorem fieldSg_packWord : fieldSg (packWord opc rm ex sg sel wo n) = sg := by
  simp [fieldSg, packWord]

@[simp] theorem fieldSel_packWord : fieldSel (packWord opc rm ex sg sel wo n) = sel := by
  apply BitVec.eq_of_getLsbD_eq
  intro i hi
  interval_cases i <;> simp [fieldSel, packWord]

@[simp] theorem fieldWo_packWord : fieldWo (packWord opc rm ex sg sel wo n) = wo := by
  simp [fieldWo, packWord]

@[simp] theorem fieldN_packWord : fieldN (packWord opc rm ex sg sel wo n) = n := by
  apply BitVec.eq_of_getLsbD_eq
  intro i hi
  interval_cases i <;> simp [fieldN, packWord]

@[simp] theorem fieldRsv_packWord : fieldRsv (packWord opc rm ex sg sel wo n) = 0#7 := by
  apply BitVec.eq_of_getLsbD_eq
  intro i hi
  interval_cases i <;> simp [fieldRsv, packWord]

end

end Sys2Proof
end

