-- ==== Sys2Proof/Laws/State.lean ====
section
/-!
SUPPORT. One lemma for each field of State under each update the machine makes, so that no later proof unfolds
an update.
-/

namespace Sys2Proof.Machine

/-! ### raiseFlags -/

@[simp] theorem State.raiseFlags_flags (s : State) (m : FlagSet) : (s.raiseFlags m).flags = s.flags ||| m := rfl
@[simp] theorem State.raiseFlags_rm (s : State) (m : FlagSet) : (s.raiseFlags m).rm = s.rm := rfl
@[simp] theorem State.raiseFlags_policy (s : State) (m : FlagSet) : (s.raiseFlags m).policy = s.policy := rfl
@[simp] theorem State.raiseFlags_r (s : State) (m : FlagSet) : (s.raiseFlags m).r = s.r := rfl
@[simp] theorem State.raiseFlags_status (s : State) (m : FlagSet) : (s.raiseFlags m).status = s.status := rfl
@[simp] theorem State.raiseFlags_cmd (s : State) (m : FlagSet) : (s.raiseFlags m).cmd = s.cmd := rfl
@[simp] theorem State.raiseFlags_a (s : State) (m : FlagSet) : (s.raiseFlags m).a = s.a := rfl
@[simp] theorem State.raiseFlags_b (s : State) (m : FlagSet) : (s.raiseFlags m).b = s.b := rfl
@[simp] theorem State.raiseFlags_rst (s : State) (m : FlagSet) : (s.raiseFlags m).rst = s.rst := rfl
@[simp] theorem State.raiseFlags_cfgPolicy (s : State) (m : FlagSet) : (s.raiseFlags m).cfgPolicy = s.cfgPolicy := rfl
@[simp] theorem State.raiseFlags_pending (s : State) (m : FlagSet) : (s.raiseFlags m).pending = s.pending := rfl
@[simp] theorem State.raiseFlags_refusedMark (s : State) (m : FlagSet) : (s.raiseFlags m).refusedMark = s.refusedMark := rfl
@[simp] theorem State.raiseFlags_params (s : State) (m : FlagSet) : (s.raiseFlags m).params = s.params := rfl

/-! ### clearFlags -/

@[simp] theorem State.clearFlags_flags (s : State) : (s.clearFlags).flags = 0#5 := rfl
@[simp] theorem State.clearFlags_rm (s : State) : (s.clearFlags).rm = s.rm := rfl
@[simp] theorem State.clearFlags_policy (s : State) : (s.clearFlags).policy = s.policy := rfl
@[simp] theorem State.clearFlags_r (s : State) : (s.clearFlags).r = s.r := rfl
@[simp] theorem State.clearFlags_status (s : State) : (s.clearFlags).status = s.status := rfl
@[simp] theorem State.clearFlags_cmd (s : State) : (s.clearFlags).cmd = s.cmd := rfl
@[simp] theorem State.clearFlags_a (s : State) : (s.clearFlags).a = s.a := rfl
@[simp] theorem State.clearFlags_b (s : State) : (s.clearFlags).b = s.b := rfl
@[simp] theorem State.clearFlags_rst (s : State) : (s.clearFlags).rst = s.rst := rfl
@[simp] theorem State.clearFlags_cfgPolicy (s : State) : (s.clearFlags).cfgPolicy = s.cfgPolicy := rfl
@[simp] theorem State.clearFlags_pending (s : State) : (s.clearFlags).pending = s.pending := rfl
@[simp] theorem State.clearFlags_refusedMark (s : State) : (s.clearFlags).refusedMark = s.refusedMark := rfl
@[simp] theorem State.clearFlags_params (s : State) : (s.clearFlags).params = s.params := rfl

/-! ### resetAction -/

@[simp] theorem resetAction_flags (s : State) : (resetAction s).flags = 0#5 := rfl
@[simp] theorem resetAction_rm (s : State) : (resetAction s).rm = .nearestEven := rfl
@[simp] theorem resetAction_policy (s : State) : (resetAction s).policy = .ofCode s.cfgPolicy := rfl
@[simp] theorem resetAction_r (s : State) : (resetAction s).r = 0#256 := rfl
@[simp] theorem resetAction_status (s : State) : (resetAction s).status = .ok := rfl
@[simp] theorem resetAction_cmd (s : State) : (resetAction s).cmd = s.cmd := rfl
@[simp] theorem resetAction_a (s : State) : (resetAction s).a = s.a := rfl
@[simp] theorem resetAction_b (s : State) : (resetAction s).b = s.b := rfl
@[simp] theorem resetAction_rst (s : State) : (resetAction s).rst = s.rst := rfl
@[simp] theorem resetAction_cfgPolicy (s : State) : (resetAction s).cfgPolicy = s.cfgPolicy := rfl
@[simp] theorem resetAction_pending (s : State) : (resetAction s).pending = s.pending := rfl
@[simp] theorem resetAction_refusedMark (s : State) : (resetAction s).refusedMark = s.refusedMark := rfl
@[simp] theorem resetAction_params (s : State) : (resetAction s).params = s.params := rfl

/-! ### raiseIf -/

@[simp] theorem State.raiseIf_flags (s : State) (c : Bool) (m : FlagSet) :
    (s.raiseIf c m).flags = if c then s.flags ||| m else s.flags := by cases c <;> rfl
@[simp] theorem State.raiseIf_rm (s : State) (c : Bool) (m : FlagSet) :
    (s.raiseIf c m).rm = s.rm := by cases c <;> rfl
@[simp] theorem State.raiseIf_policy (s : State) (c : Bool) (m : FlagSet) :
    (s.raiseIf c m).policy = s.policy := by cases c <;> rfl
@[simp] theorem State.raiseIf_r (s : State) (c : Bool) (m : FlagSet) :
    (s.raiseIf c m).r = s.r := by cases c <;> rfl
@[simp] theorem State.raiseIf_status (s : State) (c : Bool) (m : FlagSet) :
    (s.raiseIf c m).status = s.status := by cases c <;> rfl
@[simp] theorem State.raiseIf_cmd (s : State) (c : Bool) (m : FlagSet) :
    (s.raiseIf c m).cmd = s.cmd := by cases c <;> rfl
@[simp] theorem State.raiseIf_a (s : State) (c : Bool) (m : FlagSet) :
    (s.raiseIf c m).a = s.a := by cases c <;> rfl
@[simp] theorem State.raiseIf_b (s : State) (c : Bool) (m : FlagSet) :
    (s.raiseIf c m).b = s.b := by cases c <;> rfl
@[simp] theorem State.raiseIf_rst (s : State) (c : Bool) (m : FlagSet) :
    (s.raiseIf c m).rst = s.rst := by cases c <;> rfl
@[simp] theorem State.raiseIf_cfgPolicy (s : State) (c : Bool) (m : FlagSet) :
    (s.raiseIf c m).cfgPolicy = s.cfgPolicy := by cases c <;> rfl
@[simp] theorem State.raiseIf_pending (s : State) (c : Bool) (m : FlagSet) :
    (s.raiseIf c m).pending = s.pending := by cases c <;> rfl
@[simp] theorem State.raiseIf_refusedMark (s : State) (c : Bool) (m : FlagSet) :
    (s.raiseIf c m).refusedMark = s.refusedMark := by cases c <;> rfl
@[simp] theorem State.raiseIf_params (s : State) (c : Bool) (m : FlagSet) :
    (s.raiseIf c m).params = s.params := by cases c <;> rfl

/-! ### accept: the inputs of a slot -/

@[simp] theorem State.accept_flags (s : State) (x : HostInput) (rest : List HostInput) :
    (s.accept x rest).flags = s.flags := by unfold State.accept; cases x.request <;> rfl
@[simp] theorem State.accept_rm (s : State) (x : HostInput) (rest : List HostInput) :
    (s.accept x rest).rm = s.rm := by unfold State.accept; cases x.request <;> rfl
@[simp] theorem State.accept_policy (s : State) (x : HostInput) (rest : List HostInput) :
    (s.accept x rest).policy = s.policy := by unfold State.accept; cases x.request <;> rfl
@[simp] theorem State.accept_r (s : State) (x : HostInput) (rest : List HostInput) :
    (s.accept x rest).r = s.r := by unfold State.accept; cases x.request <;> rfl
@[simp] theorem State.accept_status (s : State) (x : HostInput) (rest : List HostInput) :
    (s.accept x rest).status = s.status := by unfold State.accept; cases x.request <;> rfl
@[simp] theorem State.accept_cmd (s : State) (x : HostInput) (rest : List HostInput) :
    (s.accept x rest).cmd = (x.request.map Request.cmd).getD s.cmd := by unfold State.accept; cases x.request <;> rfl
@[simp] theorem State.accept_a (s : State) (x : HostInput) (rest : List HostInput) :
    (s.accept x rest).a = (x.request.map Request.a).getD s.a := by unfold State.accept; cases x.request <;> rfl
@[simp] theorem State.accept_b (s : State) (x : HostInput) (rest : List HostInput) :
    (s.accept x rest).b = (x.request.map Request.b).getD s.b := by unfold State.accept; cases x.request <;> rfl
@[simp] theorem State.accept_rst (s : State) (x : HostInput) (rest : List HostInput) :
    (s.accept x rest).rst = x.rst := by unfold State.accept; cases x.request <;> rfl
@[simp] theorem State.accept_cfgPolicy (s : State) (x : HostInput) (rest : List HostInput) :
    (s.accept x rest).cfgPolicy = x.cfgPolicy := by unfold State.accept; cases x.request <;> rfl
@[simp] theorem State.accept_pending (s : State) (x : HostInput) (rest : List HostInput) :
    (s.accept x rest).pending = rest := by unfold State.accept; cases x.request <;> rfl
@[simp] theorem State.accept_refusedMark (s : State) (x : HostInput) (rest : List HostInput) :
    (s.accept x rest).refusedMark = s.refusedMark := by unfold State.accept; cases x.request <;> rfl
@[simp] theorem State.accept_params (s : State) (x : HostInput) (rest : List HostInput) :
    (s.accept x rest).params = s.params := by unfold State.accept; cases x.request <;> rfl

/-! ### Whole-record forms -/

theorem State.accept_request (s : State) (x : HostInput) (rest : List HostInput) (q : Request)
    (h : x.request = some q) :
    s.accept x rest =
      { s with
        pending := rest, rst := x.rst, cfgPolicy := x.cfgPolicy, cmd := q.cmd, a := q.a, b := q.b } := by
  simp only [State.accept, h]

theorem State.accept_idle (s : State) (x : HostInput) (rest : List HostInput) (h : x.request = none) :
    s.accept x rest = { s with pending := rest, rst := x.rst, cfgPolicy := x.cfgPolicy } := by
  simp only [State.accept, h]

theorem State.raiseIf_eq (s : State) (c : Bool) (m : FlagSet) :
    s.raiseIf c m = { s with flags := if c then s.flags ||| m else s.flags } := by
  cases c <;> rfl

end Sys2Proof.Machine
end

