-- ==== Sys2Proof/Laws/Ops.lean ====
section
/-!
SUPPORT. What each shared operation can do, said once: completing, rejecting, checking an immediate, and the
numbers the operand functions read.
-/

namespace Sys2Proof.Machine

/-! ## Outcomes -/

theorem complete_next {s t : State} {r : Bus} (h : complete s r = .next t) :
    t = { s with r := r, status := .ok } := by
  simpa [complete] using h.symm

theorem reject_next {s t : State} (h : reject s = .next t) :
    t = { s with r := 0#256, status := .illegal, refusedMark := true } := by
  simpa [reject] using h.symm

@[simp] theorem whenLegal_true (s : State) (o : Result) : whenLegal true s o = o := rfl

@[simp] theorem whenLegal_false (s : State) (o : Result) : whenLegal false s o = reject s := rfl

theorem whenLegal_of {p : Prop} [Decidable p] (s : State) (o : Result) (h : p) :
    whenLegal (decide p) s o = o := by simp [h]

theorem whenLegal_of_not {p : Prop} [Decidable p] (s : State) (o : Result) (h : ¬p) :
    whenLegal (decide p) s o = reject s := by simp [h]

/-! ## Numbers on the buses -/

theorem zext_toNat {n : Nat} (x : BitVec n) (h : n ≤ 256) : (zext x).toNat = x.toNat := by
  have := x.isLt
  have : 2 ^ n ≤ 2 ^ 256 := Nat.pow_le_pow_right (by decide) h
  simp only [zext, BitVec.toNat_setWidth]
  exact Nat.mod_eq_of_lt (by omega)

theorem a64_toNat (s : State) : s.a64.toNat = s.a.toNat % 2 ^ 64 := by
  simp [State.a64, BitVec.extractLsb'_toNat]

theorem b64_toNat (s : State) : s.b64.toNat = s.b.toNat % 2 ^ 64 := by
  simp [State.b64, BitVec.extractLsb'_toNat]

theorem a128_toNat (s : State) : s.a128.toNat = s.a.toNat % 2 ^ 128 := by
  simp [State.a128, BitVec.extractLsb'_toNat]

theorem b128_toNat (s : State) : s.b128.toNat = s.b.toNat % 2 ^ 128 := by
  simp [State.b128, BitVec.extractLsb'_toNat]

theorem word_toNat {n : Nat} (x : BitVec n) (k : Nat) :
    (word x k).toNat = x.toNat / 2 ^ (64 * k) % 2 ^ 64 := by
  simp [word, BitVec.extractLsb'_toNat, Nat.shiftRight_eq_div_pow]

end Sys2Proof.Machine
end

