-- ==== Sys2Proof/Laws/Exec.lean ====
section
/-!
SUPPORT. What a meaning, a slot and a step can do to the state, said once: later proofs take these apart
instead of unfolding `exec` or `step`.
-/

namespace Sys2Proof.Machine

/-- The end of a rounding command as one state. -/
theorem settleRounding_eq {w : Nat} (s : State) (ex : Bool) (sentinel : BitVec w) (q : Rounded w) :
    settleRounding s ex sentinel q =
      match q with
      | .invalid => .next { s with r := zext sentinel, status := .ok, flags := s.flags ||| flagInvalid }
      | .value z inexact =>
        .next
          { s with
            r := zext z, status := .ok
            flags := if inexact && ex then s.flags ||| flagInexact else s.flags } := by
  cases q with
  | invalid => rfl
  | value z inexact => simp only [settleRounding, complete, State.raiseIf_eq]

/-- A rounding command writes R, STATUS and, by OR, FLAGS: nothing else. -/
theorem settleRounding_effect {w : Nat} (s : State) (ex : Bool) (sentinel : BitVec w) (q : Rounded w) :
    ∃ (r : Bus) (m : FlagSet),
      settleRounding s ex sentinel q = .next { s with r := r, status := .ok, flags := s.flags ||| m } := by
  rw [settleRounding_eq]
  cases q with
  | invalid => exact ⟨_, _, rfl⟩
  | value z inexact =>
    cases h : inexact && ex
    · exact ⟨zext z, 0#5, by simp only [h]; simp⟩
    · exact ⟨zext z, flagInexact, by simp only [h]; simp⟩

/-- The immediate check either lets the completion through or rejects. -/
theorem whenLegal_complete_effect (c : Bool) (s t : State) (r : Bus) :
    whenLegal c s (complete t r) = .next { t with r := r, status := .ok } ∨
      whenLegal c s (complete t r) =
        .next { s with r := 0#256, status := .illegal, refusedMark := true } := by
  cases c
  · exact .inr rfl
  · exact .inl rfl

/-- Every meaning answers a next state, and writes at most R, STATUS, FLAGS, RM and the overlay mark. -/
theorem exec_effect (i : Instr) (s : State) :
    ∃ (r : Bus) (st : Status) (f : FlagSet) (m : RoundingMode) (k : Bool),
      exec i s = .next { s with r := r, status := st, flags := f, rm := m, refusedMark := k } := by
  cases i
  case shl128 n =>
    rcases whenLegal_complete_effect (n.toNat ≤ 127) s s (zext (s.a128 <<< n.toNat)) with h | h <;>
      exact ⟨_, _, _, _, _, h⟩
  case shr128 n =>
    rcases whenLegal_complete_effect (n.toNat ≤ 127) s s (zext (s.a128 >>> n.toNat)) with h | h <;>
      exact ⟨_, _, _, _, _, h⟩
  case getw128 n =>
    rcases whenLegal_complete_effect (n.toNat ≤ 1) s s (zext (word s.a128 n.toNat)) with h | h <;>
      exact ⟨_, _, _, _, _, h⟩
  case setw128 n =>
    rcases whenLegal_complete_effect (n.toNat ≤ 1) s s (zext (replaceWord s.a128 n.toNat s.b64)) with
      h | h <;> exact ⟨_, _, _, _, _, h⟩
  case getw256 n =>
    rcases whenLegal_complete_effect (n.toNat ≤ 3) s s (zext (word s.a n.toNat)) with h | h <;>
      exact ⟨_, _, _, _, _, h⟩
  case setw256 n =>
    rcases whenLegal_complete_effect (n.toNat ≤ 3) s s (replaceWord s.a n.toNat s.b64) with h | h <;>
      exact ⟨_, _, _, _, _, h⟩
  case raise n =>
    rcases whenLegal_complete_effect (n.toNat ≤ 31) s (s.raiseFlags (n.extractLsb' 0 5)) 0#256 with
      h | h <;> exact ⟨_, _, _, _, _, h⟩
  case rndu32 rm ex sg =>
    obtain ⟨r, m, h⟩ := settleRounding_effect s ex (pconstU32 s.params s.policy (overflowKind sg))
      (roundU32 (s.effectiveMode rm) sg s.a64)
    exact ⟨_, _, _, _, _, h⟩
  case rndi32 rm ex sg =>
    obtain ⟨r, m, h⟩ := settleRounding_effect s ex (pconstI32 s.params s.policy (overflowKind sg))
      (roundI32 s.params.oddNegIncrement (s.effectiveMode rm) sg s.a64)
    exact ⟨_, _, _, _, _, h⟩
  case rndu64 rm ex sg =>
    obtain ⟨r, m, h⟩ := settleRounding_effect s ex (pconstU64 s.params s.policy (overflowKind sg))
      (roundU64 (s.effectiveMode rm) sg s.a64 s.b64)
    exact ⟨_, _, _, _, _, h⟩
  case rndi64 rm ex sg =>
    obtain ⟨r, m, h⟩ := settleRounding_effect s ex (pconstI64 s.params s.policy (overflowKind sg))
      (roundI64 s.params.oddNegIncrement (s.effectiveMode rm) sg s.a64 s.b64)
    exact ⟨_, _, _, _, _, h⟩
  case propnan w =>
    refine ⟨zext (propagated s.params s.policy w (nanOperand w s.a) (nanOperand w s.b)), .ok,
      if isSNaN w (nanOperand w s.a) || isSNaN w (nanOperand w s.b) then s.flags ||| flagInvalid
        else s.flags, s.rm, s.refusedMark, ?_⟩
    simp only [exec, execPropnan, complete, State.raiseIf_eq]
  all_goals exact ⟨_, _, _, _, _, rfl⟩

/-- The command on the ports, executed or rejected. -/
theorem issue_effect (s : State) :
    ∃ (r : Bus) (st : Status) (f : FlagSet) (m : RoundingMode) (k : Bool),
      issue s = .next { s with r := r, status := st, flags := f, rm := m, refusedMark := k } := by
  unfold issue
  cases decode s.cmd with
  | ok i => exact exec_effect i s
  | error _ => exact ⟨_, _, _, _, _, rfl⟩

/-- The three things a slot can be. -/
theorem runSlot_cases (x : HostInput) (s : State) :
    (x.rst = true ∧ runSlot x s = .next (resetAction s)) ∨
    (x.rst = false ∧ x.request = none ∧ runSlot x s = .next s) ∨
    (x.rst = false ∧ (∃ q, x.request = some q) ∧ runSlot x s = issue s) := by
  unfold runSlot
  cases hr : x.rst with
  | true => exact .inl ⟨rfl, rfl⟩
  | false =>
    cases hq : x.request with
    | none => exact .inr (.inl ⟨rfl, rfl, rfl⟩)
    | some q => exact .inr (.inr ⟨rfl, ⟨q, rfl⟩, rfl⟩)

theorem step_nil {s : State} (h : s.pending = []) : step s = .next s := by
  simp only [step, h]

theorem step_cons {s : State} {x : HostInput} {rest : List HostInput} (h : s.pending = x :: rest) :
    step s = runSlot x (s.accept x rest) := by
  simp only [step, h]

end Sys2Proof.Machine
end

