-- ==== Sys2Proof/Laws/PerInstr.lean ====
section
/-!
SUPPORT. Facts about every instruction as syntax, one lemma a constructor: the header of its command word.
-/

namespace Sys2Proof.Laws

/-- The row of the opcode map an instruction belongs to. -/
def opcodeOf : Instr → Opcode
  | .cmpu128 => .cmpu128
  | .add128 => .add128
  | .sub128 => .sub128
  | .neg128 => .neg128
  | .shl128 _ => .shl128
  | .shr128 _ => .shr128
  | .mulw128 => .mulw128
  | .getw128 _ => .getw128
  | .setw128 _ => .setw128
  | .tow128 _ => .tow128
  | .fromw128 _ => .fromw128
  | .cmpu256 => .cmpu256
  | .add256 => .add256
  | .sub256 => .sub256
  | .neg256 => .neg256
  | .shl256 _ => .shl256
  | .shr256 _ => .shr256
  | .getw256 _ => .getw256
  | .setw256 _ => .setw256
  | .tow256 _ => .tow256
  | .fromw256 _ => .fromw256
  | .shrx64 _ => .shrx64
  | .shrx128 _ => .shrx128
  | .rndu32 _ _ _ => .rndu32
  | .rndi32 _ _ _ => .rndi32
  | .rndu64 _ _ _ => .rndu64
  | .rndi64 _ _ _ => .rndi64
  | .pconstu32 _ => .pconstu32
  | .pconsti32 _ => .pconsti32
  | .pconstu64 _ => .pconstu64
  | .pconsti64 _ => .pconsti64
  | .defnan _ => .defnan
  | .propnan _ => .propnan
  | .rdpol => .rdpol
  | .raise _ => .raise
  | .resetf => .resetf
  | .rdflags => .rdflags
  | .wrrm _ => .wrrm
  | .rdrm => .rdrm

/-- The word has the row's opcode, RSV zero, and zero in every field the row does not use (30_encoding R45,
R46, R47). -/
def HeaderOf (o : Opcode) (w : Command) : Prop :=
  fieldOpc w = o.code ∧ fieldRsv w = 0#7 ∧ o.uses.unusedZero w = true


/-- The word `encode` writes has the header of its row. -/
def EncodedHeader.Statement (i : Instr) : Prop :=
  HeaderOf (opcodeOf i) (encode i)

theorem headerOf_packWord (o : Opcode) (rm : BitVec 3) (ex sg : Bool) (sel : BitVec 3) (wo : Bool)
    (n : BitVec 8) (hrm : o.uses.rm = true ∨ rm = 0#3) (hx : o.uses.exSg = true ∨ ex = false ∧ sg = false)
    (hsel : o.uses.sel = true ∨ sel = 0#3) (hwo : o.uses.wo = true ∨ wo = false)
    (hn : o.uses.n = true ∨ n = 0#8) : HeaderOf o (packWord o.code rm ex sg sel wo n) := by
  refine ⟨fieldOpc_packWord .., fieldRsv_packWord .., ?_⟩
  simp only [FieldUse.unusedZero, fieldRm_packWord, fieldEx_packWord, fieldSg_packWord,
    fieldSel_packWord, fieldWo_packWord, fieldN_packWord, Bool.and_eq_true, Bool.or_eq_true, beq_iff_eq,
    Bool.not_eq_true']
  exact ⟨⟨⟨⟨hrm, hx⟩, hsel⟩, hwo⟩, hn⟩

theorem headerOf_plain (o : Opcode) : HeaderOf o (encodePlain o) :=
  headerOf_packWord o _ _ _ _ _ _ (.inr rfl) (.inr ⟨rfl, rfl⟩) (.inr rfl) (.inr rfl) (.inr rfl)

theorem headerOf_immediate (o : Opcode) (n : BitVec 8) (h : o.uses.n = true) : HeaderOf o (encodeN o n) :=
  headerOf_packWord o _ _ _ _ _ _ (.inr rfl) (.inr ⟨rfl, rfl⟩) (.inr rfl) (.inr rfl) (.inl h)

theorem headerOf_order (o : Opcode) (wo : WordOrder) (h : o.uses.wo = true) : HeaderOf o (encodeWo o wo) :=
  headerOf_packWord o _ _ _ _ _ _ (.inr rfl) (.inr ⟨rfl, rfl⟩) (.inr rfl) (.inl h) (.inr rfl)

theorem headerOf_select (o : Opcode) (sel : BitVec 3) (h : o.uses.sel = true) :
    HeaderOf o (encodeSel o sel) :=
  headerOf_packWord o _ _ _ _ _ _ (.inr rfl) (.inr ⟨rfl, rfl⟩) (.inl h) (.inr rfl) (.inr rfl)

theorem headerOf_rounding (o : Opcode) (rm : RmField) (ex sg : Bool) (h : o.uses.rm = true)
    (h' : o.uses.exSg = true) : HeaderOf o (encodeRounding o rm ex sg) :=
  headerOf_packWord o _ _ _ _ _ _ (.inl h) (.inl h') (.inr rfl) (.inr rfl) (.inr rfl)

theorem EncodedHeader.cmpu128 : EncodedHeader.Statement .cmpu128 :=
  headerOf_plain .cmpu128
theorem EncodedHeader.add128 : EncodedHeader.Statement .add128 :=
  headerOf_plain .add128
theorem EncodedHeader.sub128 : EncodedHeader.Statement .sub128 :=
  headerOf_plain .sub128
theorem EncodedHeader.neg128 : EncodedHeader.Statement .neg128 :=
  headerOf_plain .neg128
theorem EncodedHeader.shl128 (n : BitVec 8) : EncodedHeader.Statement (.shl128 n) :=
  headerOf_immediate .shl128 n rfl
theorem EncodedHeader.shr128 (n : BitVec 8) : EncodedHeader.Statement (.shr128 n) :=
  headerOf_immediate .shr128 n rfl
theorem EncodedHeader.mulw128 : EncodedHeader.Statement .mulw128 :=
  headerOf_plain .mulw128
theorem EncodedHeader.getw128 (n : BitVec 8) : EncodedHeader.Statement (.getw128 n) :=
  headerOf_immediate .getw128 n rfl
theorem EncodedHeader.setw128 (n : BitVec 8) : EncodedHeader.Statement (.setw128 n) :=
  headerOf_immediate .setw128 n rfl
theorem EncodedHeader.tow128 (wo : WordOrder) : EncodedHeader.Statement (.tow128 wo) :=
  headerOf_order .tow128 wo rfl
theorem EncodedHeader.fromw128 (wo : WordOrder) : EncodedHeader.Statement (.fromw128 wo) :=
  headerOf_order .fromw128 wo rfl
theorem EncodedHeader.cmpu256 : EncodedHeader.Statement .cmpu256 :=
  headerOf_plain .cmpu256
theorem EncodedHeader.add256 : EncodedHeader.Statement .add256 :=
  headerOf_plain .add256
theorem EncodedHeader.sub256 : EncodedHeader.Statement .sub256 :=
  headerOf_plain .sub256
theorem EncodedHeader.neg256 : EncodedHeader.Statement .neg256 :=
  headerOf_plain .neg256
theorem EncodedHeader.shl256 (n : BitVec 8) : EncodedHeader.Statement (.shl256 n) :=
  headerOf_immediate .shl256 n rfl
theorem EncodedHeader.shr256 (n : BitVec 8) : EncodedHeader.Statement (.shr256 n) :=
  headerOf_immediate .shr256 n rfl
theorem EncodedHeader.getw256 (n : BitVec 8) : EncodedHeader.Statement (.getw256 n) :=
  headerOf_immediate .getw256 n rfl
theorem EncodedHeader.setw256 (n : BitVec 8) : EncodedHeader.Statement (.setw256 n) :=
  headerOf_immediate .setw256 n rfl
theorem EncodedHeader.tow256 (wo : WordOrder) : EncodedHeader.Statement (.tow256 wo) :=
  headerOf_order .tow256 wo rfl
theorem EncodedHeader.fromw256 (wo : WordOrder) : EncodedHeader.Statement (.fromw256 wo) :=
  headerOf_order .fromw256 wo rfl
theorem EncodedHeader.shrx64 (n : BitVec 8) : EncodedHeader.Statement (.shrx64 n) :=
  headerOf_immediate .shrx64 n rfl
theorem EncodedHeader.shrx128 (n : BitVec 8) : EncodedHeader.Statement (.shrx128 n) :=
  headerOf_immediate .shrx128 n rfl
theorem EncodedHeader.rndu32 (rm : RmField) (ex sg : Bool) : EncodedHeader.Statement (.rndu32 rm ex sg) :=
  headerOf_rounding .rndu32 rm ex sg rfl rfl
theorem EncodedHeader.rndi32 (rm : RmField) (ex sg : Bool) : EncodedHeader.Statement (.rndi32 rm ex sg) :=
  headerOf_rounding .rndi32 rm ex sg rfl rfl
theorem EncodedHeader.rndu64 (rm : RmField) (ex sg : Bool) : EncodedHeader.Statement (.rndu64 rm ex sg) :=
  headerOf_rounding .rndu64 rm ex sg rfl rfl
theorem EncodedHeader.rndi64 (rm : RmField) (ex sg : Bool) : EncodedHeader.Statement (.rndi64 rm ex sg) :=
  headerOf_rounding .rndi64 rm ex sg rfl rfl
theorem EncodedHeader.pconstu32 (k : ConstKind) : EncodedHeader.Statement (.pconstu32 k) :=
  headerOf_select .pconstu32 k.code rfl
theorem EncodedHeader.pconsti32 (k : ConstKind) : EncodedHeader.Statement (.pconsti32 k) :=
  headerOf_select .pconsti32 k.code rfl
theorem EncodedHeader.pconstu64 (k : ConstKind) : EncodedHeader.Statement (.pconstu64 k) :=
  headerOf_select .pconstu64 k.code rfl
theorem EncodedHeader.pconsti64 (k : ConstKind) : EncodedHeader.Statement (.pconsti64 k) :=
  headerOf_select .pconsti64 k.code rfl
theorem EncodedHeader.defnan (w : NanWidth) : EncodedHeader.Statement (.defnan w) :=
  headerOf_select .defnan w.code rfl
theorem EncodedHeader.propnan (w : NanWidth) : EncodedHeader.Statement (.propnan w) :=
  headerOf_select .propnan w.code rfl
theorem EncodedHeader.rdpol : EncodedHeader.Statement .rdpol :=
  headerOf_plain .rdpol
theorem EncodedHeader.raise (n : BitVec 8) : EncodedHeader.Statement (.raise n) :=
  headerOf_immediate .raise n rfl
theorem EncodedHeader.resetf : EncodedHeader.Statement .resetf :=
  headerOf_plain .resetf
theorem EncodedHeader.rdflags : EncodedHeader.Statement .rdflags :=
  headerOf_plain .rdflags
theorem EncodedHeader.wrrm (m : RoundingMode) : EncodedHeader.Statement (.wrrm m) :=
  headerOf_packWord .wrrm _ _ _ _ _ _ (.inl rfl) (.inr ⟨rfl, rfl⟩) (.inr rfl) (.inr rfl) (.inr rfl)
theorem EncodedHeader.rdrm : EncodedHeader.Statement .rdrm :=
  headerOf_plain .rdrm

end Sys2Proof.Laws
end

