-- ==== Sys2Proof/Laws/Policy.lean ====
section
/-!
SUPPORT. The NaN classification of the machine is the one on numbers that the claims use.
-/

namespace Sys2Proof.Machine

open Sys2Proof.Safety

@[simp] theorem policy_ofCode_code (p : Policy) : Policy.ofCode p.code = p := by
  cases p <;> rfl

@[simp] theorem policy_code_ofCode (c : BitVec 2) : (Policy.ofCode c).code = c := by
  revert c; decide

theorem nanOperand_toNat (w : NanWidth) (x : Bus) : (nanOperand w x).toNat = nanBits w x := by
  cases w <;> simp only [nanOperand, nanBits, nanRow, BitVec.toNat_setWidth, BitVec.extractLsb'_toNat,
    Nat.shiftRight_zero] <;> omega

/-- A field of a value against a constant, on numbers. -/
theorem extract_eq_iff {n : Nat} (x : BitVec n) (lo len : Nat) (c : BitVec len) :
    x.extractLsb' lo len = c ↔ x.toNat / 2 ^ lo % 2 ^ len = c.toNat := by
  rw [← BitVec.toNat_inj]
  simp [BitVec.extractLsb'_toNat, Nat.shiftRight_eq_div_pow]

theorem isNaN_iff (w : NanWidth) (x : Wide128) : isNaN w x = true ↔ NaNPattern w x.toNat := by
  cases w <;>
    simp [isNaN, NaNPattern, nanRow, extract_eq_iff, -BitVec.extractLsb'_eq_self]

theorem getLsbD_false_iff {n : Nat} (x : BitVec n) (i : Nat) :
    x.getLsbD i = false ↔ x.toNat / 2 ^ i % 2 = 0 := by
  rw [← BitVec.testBit_toNat, Nat.testBit_eq_decide_div_mod_eq]
  simp

theorem isSNaN_iff (w : NanWidth) (x : Wide128) : isSNaN w x = true ↔ SignalingPattern w x.toNat := by
  cases w
  case x80 =>
    simp only [isSNaN, SignalingPattern, NaNPattern, nanRow, Bool.and_eq_true, beq_iff_eq, bne_iff_ne,
      ne_eq, Bool.not_eq_true', extract_eq_iff, getLsbD_false_iff]
    simp only [BitVec.toNat_ofNat]
    omega
  all_goals
    simp only [isSNaN, SignalingPattern, Bool.and_eq_true, isNaN_iff, Bool.not_eq_true',
      getLsbD_false_iff, nanRow]

theorem nanMag_eq (w : NanWidth) (x : Wide128) : nanMag w x = magnitude w x.toNat := by
  cases w <;> simp [nanMag, magnitude, nanRow, BitVec.extractLsb'_toNat]

theorem nanSign_false_iff (w : NanWidth) (x : Wide128) : nanSign w x = false ↔ signOf w x.toNat = 0 := by
  cases w <;> simp only [nanSign, signOf, nanRow, getLsbD_false_iff]

theorem quiet_toNat (w : NanWidth) (x : Wide128) : (quiet w x).toNat = quieted w x.toNat := by
  cases w <;> simp [quiet, quieted, quietMask, nanRow]

end Sys2Proof.Machine
end

