-- ==== Sys2Proof/Laws/Rounding.lean ====
section
/-!
SUPPORT. The pieces of the rounding engine on numbers: the round bits, the tie and odd corrections.
-/

namespace Sys2Proof.Machine

theorem roundBits_toNat (sig : Word64) : (roundBits sig).toNat = sig.toNat % 2 ^ 12 := by
  simp [roundBits, BitVec.extractLsb'_toNat]

/-- Clearing bit 0 rounds down to an even number. -/
theorem and_not_one_toNat {w : Nat} (z : BitVec (w + 1)) : (z &&& ~~~1#(w + 1)).toNat = z.toNat / 2 * 2 := by
  have h : z &&& ~~~1#(w + 1) = (z >>> 1) <<< 1 := by
    apply BitVec.eq_of_getLsbD_eq
    intro i hi
    rcases i with _ | i
    · simp
    · simp [hi, Nat.add_comm 1 i]
  rw [h]
  have := z.isLt
  simp only [BitVec.toNat_shiftLeft, BitVec.toNat_ushiftRight, Nat.shiftLeft_eq,
    Nat.shiftRight_eq_div_pow, Nat.pow_one]
  exact Nat.mod_eq_of_lt (by omega)

/-- Setting bit 0 takes an even number to the odd one above it. -/
theorem or_one_toNat {w : Nat} (z : BitVec (w + 1)) : (z ||| 1#(w + 1)).toNat = z.toNat / 2 * 2 + 1 := by
  have h1 : (1#(w + 1)).toNat = 1 := by simp
  rw [BitVec.toNat_or, h1]
  apply Nat.eq_of_testBit_eq
  intro i
  rcases i with _ | i
  · simp
  · rw [Nat.testBit_or, Nat.testBit_succ, Nat.testBit_succ, Nat.testBit_succ]
    have : (z.toNat / 2 * 2 + 1) / 2 = z.toNat / 2 := by omega
    rw [this]
    simp

theorem clearTie_toNat {w : Nat} (m : RoundingMode) (tie : Bool) (z : BitVec (w + 1)) :
    (clearTie m tie z).toNat =
      if m = .nearestEven ∧ tie = true then z.toNat / 2 * 2 else z.toNat := by
  unfold clearTie
  split
  · exact and_not_one_toNat z
  · rfl

theorem forceOdd_toNat {w : Nat} (m : RoundingMode) (inexact : Bool) (z : BitVec (w + 1)) :
    (forceOdd m inexact z).toNat =
      if m = .odd ∧ inexact = true then z.toNat / 2 * 2 + 1 else z.toNat := by
  unfold forceOdd
  split
  · exact or_one_toNat z
  · rfl

/-- The mode in force is the machine's effective mode. -/
theorem effectiveMode_eq (s : State) (rm : RmField) : s.effectiveMode rm = Safety.modeInForce rm s.rm := by
  cases rm <;> rfl

end Sys2Proof.Machine
end

