-- ==== Sys2Proof/Laws/Wide.lean ====
section
/-!
SUPPORT. The shared operations of the wide-integer and ExtraWord commands, each in terms of numbers or words.
-/

namespace Sys2Proof.Machine

theorem compareUnsigned_lt {n : Nat} {x y : BitVec n} (h : x.toNat < y.toNat) :
    compareUnsigned x y = BitVec.allOnes 64 := by simp [compareUnsigned, h]

theorem compareUnsigned_gt {n : Nat} {x y : BitVec n} (h : y.toNat < x.toNat) :
    compareUnsigned x y = 1#64 := by
  have : ¬x.toNat < y.toNat := by omega
  simp [compareUnsigned, h, this]

theorem compareUnsigned_eq {n : Nat} {x y : BitVec n} (h : x.toNat = y.toNat) :
    compareUnsigned x y = 0#64 := by simp [compareUnsigned, h]

/-- Bit j of a value with word i replaced. -/
theorem replaceWord_getLsbD {n : Nat} (x : BitVec n) (i : Nat) (w : Word64) (j : Nat) (hj : j < n) :
    (replaceWord x i w).getLsbD j =
      if 64 * i ≤ j ∧ j < 64 * i + 64 then w.getLsbD (j - 64 * i) else x.getLsbD j := by
  simp only [replaceWord, BitVec.getLsbD_or, BitVec.getLsbD_and, BitVec.getLsbD_not,
    BitVec.getLsbD_shiftLeft, BitVec.getLsbD_setWidth, BitVec.getLsbD_allOnes]
  by_cases h1 : 64 * i ≤ j
  · have h4 : ¬j < 64 * i := by omega
    have h5 : j - 64 * i < n := by omega
    by_cases h2 : j < 64 * i + 64
    · have h3 : j - 64 * i < 64 := by omega
      simp [hj, h1, h2, h3, h4, h5]
    · have h3 : ¬j - 64 * i < 64 := by omega
      have h6 : w.getLsbD (j - 64 * i) = false := BitVec.getLsbD_of_ge _ _ (by omega)
      simp [hj, h2, h3, h6]
  · have h4 : j < 64 * i := by omega
    simp [hj, h1, h4]

/-- Word k of a value with word i replaced: the new word at i, the old ones elsewhere. -/
theorem word_replaceWord {n : Nat} (x : BitVec n) (i k : Nat) (w : Word64) (hk : 64 * k + 64 ≤ n) :
    word (replaceWord x i w) k = if k = i then w else word x k := by
  apply BitVec.eq_of_getLsbD_eq
  intro j hj
  have h : 64 * k + j < n := by omega
  by_cases hki : k = i
  · subst hki
    have h2 : 64 * k + j < 64 * k + 64 := by omega
    simp [word, replaceWord_getLsbD x k w (64 * k + j) h, hj]
  · have h2 : ¬(64 * i ≤ 64 * k + j ∧ 64 * k + j < 64 * i + 64) := by omega
    simp [word, replaceWord_getLsbD x i w (64 * k + j) h, hj, h2, hki]

theorem jam_toNat (e x : Word64) :
    (jam e x).toNat = if x.toNat = 0 then e.toNat else e.toNat ||| 1 := by
  by_cases h : x = 0#64
  · simp [jam, h]
  · have : x.toNat ≠ 0 := fun h' => h (BitVec.eq_of_toNat_eq (by simpa using h'))
    simp [jam, h, this]

theorem collapsed_toNat (v : Word64) (d : Nat) :
    (collapsed v d).toNat = if d = 0 then v.toNat else if v.toNat = 0 then 0 else 1 := by
  by_cases hd : d = 0
  · simp [collapsed, hd]
  · by_cases h : v = 0#64
    · simp [collapsed, hd, h]
    · have : v.toNat ≠ 0 := fun h' => h (BitVec.eq_of_toNat_eq (by simpa using h'))
      simp [collapsed, hd, h, this]

end Sys2Proof.Machine
end

