-- ==== Sys2Proof/Tests/Slice0.lean ====
section
/-!
SUPPORT. The model's own tests. Every expected value is the spec's: the rule's example or the vector of
95_test_vectors that the comment names. At the end, a witness for every statement that has hypotheses.
-/

namespace Sys2Proof.Tests

open Sys2Proof.Machine Sys2Proof.Safety

/-- One command word issued right after a reset with strap `pol`, on the buses `a` and `b`: (R, FLAGS, STATUS). -/
def answer (pol : BitVec 2) (w a b : Nat) : Option (Nat × Nat × Status) :=
  match step ({ State.resetWith pol with a := BitVec.ofNat 256 a, b := BitVec.ofNat 256 b }.withFetchWord 32 w) with
  | .next t => some (t.r.toNat, t.flags.toNat, t.status)
  | .fault _ => none
  | .refused _ => none

/-- The outcome is a next state with this property. -/
def nextWith (o : Result) (p : State → Bool) : Bool :=
  match o with
  | .next t => p t
  | .fault _ => false
  | .refused _ => false

/-! ## WellFormed refuses each ill-formed immediate (30_encoding R50) -/

theorem test_wf_refuses_shl128_128 : (Instr.shl128 128#8).wf = false := by decide
theorem test_wf_refuses_shr128_128 : (Instr.shr128 128#8).wf = false := by decide
theorem test_wf_refuses_getw128_2 : (Instr.getw128 2#8).wf = false := by decide
theorem test_wf_refuses_setw128_2 : (Instr.setw128 2#8).wf = false := by decide
theorem test_wf_refuses_getw256_4 : (Instr.getw256 4#8).wf = false := by decide
theorem test_wf_refuses_setw256_4 : (Instr.setw256 4#8).wf = false := by decide
theorem test_wf_refuses_raise_32 : (Instr.raise 32#8).wf = false := by decide

/-! ## Decoding: a word of every constructor, written out from 30_encoding R45 and opcode_table.json -/

theorem test_decode_wide128 :
    decode 0x00000010#32 = .ok .cmpu128 ∧
    decode 0x00000011#32 = .ok .add128 ∧
    decode 0x00000012#32 = .ok .sub128 ∧
    decode 0x00000013#32 = .ok .neg128 ∧
    decode 0x00FE0014#32 = .ok (.shl128 127#8) ∧
    decode 0x00800015#32 = .ok (.shr128 64#8) ∧
    decode 0x00000016#32 = .ok .mulw128 ∧
    decode 0x00020017#32 = .ok (.getw128 1#8) ∧
    decode 0x00020018#32 = .ok (.setw128 1#8) ∧
    decode 0x00010019#32 = .ok (.tow128 .bigEndianOfWords) ∧
    decode 0x0000001A#32 = .ok (.fromw128 .littleEndianOfWords) := by decide

theorem test_decode_wide256 :
    decode 0x00000020#32 = .ok .cmpu256 ∧
    decode 0x00000021#32 = .ok .add256 ∧
    decode 0x00000022#32 = .ok .sub256 ∧
    decode 0x00000023#32 = .ok .neg256 ∧
    decode 0x01FE0024#32 = .ok (.shl256 255#8) ∧
    decode 0x01800025#32 = .ok (.shr256 192#8) ∧
    decode 0x00060027#32 = .ok (.getw256 3#8) ∧
    decode 0x00040028#32 = .ok (.setw256 2#8) ∧
    decode 0x00000029#32 = .ok (.tow256 .littleEndianOfWords) ∧
    decode 0x0001002A#32 = .ok (.fromw256 .bigEndianOfWords) := by decide

theorem test_decode_extraword :
    decode 0x01900030#32 = .ok (.shrx64 200#8) ∧
    decode 0x00840031#32 = .ok (.shrx128 66#8) := by decide

theorem test_decode_rounding :
    decode 0x00000E40#32 = .ok (.rndu32 (.mode .odd) true false) ∧
    decode 0x00001A41#32 = .ok (.rndi32 (.mode .towardNegative) true true) ∧
    decode 0x00000F42#32 = .ok (.rndu64 .dyn true false) ∧
    decode 0x00001343#32 = .ok (.rndi64 (.mode .towardPositive) false true) := by decide

theorem test_decode_policy :
    decode 0x00000050#32 = .ok (.pconstu32 .posOverflow) ∧
    decode 0x00002051#32 = .ok (.pconsti32 .negOverflow) ∧
    decode 0x00004052#32 = .ok (.pconstu64 .nan) ∧
    decode 0x00004053#32 = .ok (.pconsti64 .nan) ∧
    decode 0x00006054#32 = .ok (.defnan .x80) ∧
    decode 0x00008055#32 = .ok (.propnan .f128) ∧
    decode 0x00000056#32 = .ok .rdpol := by decide

theorem test_decode_flags :
    decode 0x003E0060#32 = .ok (.raise 31#8) ∧
    decode 0x00000061#32 = .ok .resetf ∧
    decode 0x00000062#32 = .ok .rdflags ∧
    decode 0x00000663#32 = .ok (.wrrm .odd) ∧
    decode 0x00000064#32 = .ok .rdrm := by decide

/-! ## The decoder refuses by name (60_exceptions R118; words of 95 L2.1) -/

theorem test_decode_unassigned :
    decode 0x00000026#32 = .error .unassignedOpcode ∧ decode 0x000000FF#32 = .error .unassignedOpcode := by decide
theorem test_decode_reserved : decode 0x02000011#32 = .error .reservedNonzero := by decide
theorem test_decode_unused_fields :
    decode 0x00020011#32 = .error .unusedFieldNonzero ∧ decode 0x00000811#32 = .error .unusedFieldNonzero ∧
    decode 0x00010011#32 = .error .unusedFieldNonzero ∧ decode 0x00002062#32 = .error .unusedFieldNonzero := by decide
theorem test_decode_rm :
    decode 0x00000540#32 = .error .rmOutOfRange ∧ decode 0x00000763#32 = .error .rmOutOfRange ∧
    decode 0x00000563#32 = .error .rmOutOfRange := by decide
theorem test_decode_sel :
    decode 0x00006050#32 = .error .selOutOfRange ∧ decode 0x0000A054#32 = .error .selOutOfRange := by decide
theorem test_decode_n :
    decode 0x01000014#32 = .error .nOutOfRange ∧ decode 0x00040017#32 = .error .nOutOfRange ∧
    decode 0x00080027#32 = .error .nOutOfRange ∧ decode 0x00400060#32 = .error .nOutOfRange := by decide

/-- No two rows of the opcode map share an OPC (30_encoding R45). -/
theorem test_opcodes_distinct : (Opcode.all.map Opcode.code).Pairwise (· ≠ ·) ∧ Opcode.all.length = 39 := by decide

/-! ## One command from reset: R, FLAGS, STATUS -/

/-- R57 example. -/
theorem test_cmpu128_high_word_decides :
    answer 0#2 0x10
      0x10000000000000000 0xffffffffffffffff =
      some (0x1, 0x0, .ok) := by decide
/-- 95 L2.2. -/
theorem test_cmpu128_less_is_minus_one :
    answer 0#2 0x10
      0x50000000000000003 0x50000000000000007 =
      some (0xffffffffffffffff, 0x0, .ok) := by decide
/-- R58 example. -/
theorem test_add128_carry_into_high_word :
    answer 0#2 0x11
      0x1ffffffffffffffff 0x1 =
      some (0x20000000000000000, 0x0, .ok) := by decide
/-- 95 L1.1. -/
theorem test_add128_wraps :
    answer 0#2 0x11
      0xffffffffffffffffffffffffffffffff 0x1 =
      some (0x0, 0x0, .ok) := by decide
/-- R59 example. -/
theorem test_sub128_borrow_from_high_word :
    answer 0#2 0x12
      0x10000000000000000 0x1 =
      some (0xffffffffffffffff, 0x0, .ok) := by decide
/-- 95 L2.2. -/
theorem test_sub128_wraps :
    answer 0#2 0x12
      0x0 0x1 =
      some (0xffffffffffffffffffffffffffffffff, 0x0, .ok) := by decide
/-- R60 example. -/
theorem test_neg128_of_one :
    answer 0#2 0x13
      0x1 0x0 =
      some (0xffffffffffffffffffffffffffffffff, 0x0, .ok) := by decide
/-- 95 L2.2. -/
theorem test_neg128_low_word_zero :
    answer 0#2 0x13
      0x10000000000000000 0x0 =
      some (0xffffffffffffffff0000000000000000, 0x0, .ok) := by decide
/-- R61 example. -/
theorem test_shl128_drops_the_top_bit :
    answer 0#2 0x20014
      0x80000000000000000000000000000001 0x0 =
      some (0x2, 0x0, .ok) := by decide
/-- R62 example. -/
theorem test_shr128_by_64 :
    answer 0#2 0x800015
      0x80000000000000000000000000000001 0x0 =
      some (0x8000000000000000, 0x0, .ok) := by decide
/-- R63 example. -/
theorem test_mulw128_into_word_two :
    answer 0#2 0x16
      0xffffffffffffffffffffffffffffffff 0x2 =
      some (0x1fffffffffffffffffffffffffffffffe, 0x0, .ok) := by decide
/-- R63 corner case. -/
theorem test_mulw128_largest :
    answer 0#2 0x16
      0xffffffffffffffffffffffffffffffff 0xffffffffffffffffffffffffffffffff =
      some (0xfffffffffffffffffffffffffffffffe00000000000000000000000000000001, 0x0, .ok) := by decide
/-- R64 example. -/
theorem test_getw128_high :
    answer 0#2 0x20017
      0x123456789abcdeffedcba9876543210 0x0 =
      some (0x123456789abcdef, 0x0, .ok) := by decide
/-- R65 example. -/
theorem test_setw128_high :
    answer 0#2 0x20018
      0x0 0x5 =
      some (0x50000000000000000, 0x0, .ok) := by decide
/-- 95 L2.2. -/
theorem test_setw128_low_keeps_high :
    answer 0#2 0x18
      0x70000000000000009 0xa =
      some (0x7000000000000000a, 0x0, .ok) := by decide
/-- R66 example. -/
theorem test_tow128_be_swaps :
    answer 0#2 0x10019
      0x11111111111111112222222222222222 0x0 =
      some (0x22222222222222221111111111111111, 0x0, .ok) := by decide
/-- R67 example. -/
theorem test_fromw128_be_swaps_back :
    answer 0#2 0x1001a
      0x22222222222222221111111111111111 0x0 =
      some (0x11111111111111112222222222222222, 0x0, .ok) := by decide
/-- R70 example. -/
theorem test_cmpu256_first_differing_word :
    answer 0#2 0x20
      0x1000000000000000000000000000000000000000000000000 0xffffffffffffffffffffffffffffffffffffffffffffffff =
      some (0x1, 0x0, .ok) := by decide
/-- R71 example. -/
theorem test_add256_carry_through_all_words :
    answer 0#2 0x21
      0xffffffffffffffffffffffffffffffffffffffffffffffffffffffffffffffff 0x1 =
      some (0x0, 0x0, .ok) := by decide
/-- R72 example. -/
theorem test_sub256_borrow_through_three_words :
    answer 0#2 0x22
      0x1000000000000000000000000000000000000000000000000 0x1 =
      some (0xffffffffffffffffffffffffffffffffffffffffffffffff, 0x0, .ok) := by decide
/-- R73 example. -/
theorem test_neg256_of_one :
    answer 0#2 0x23
      0x1 0x0 =
      some (0xffffffffffffffffffffffffffffffffffffffffffffffffffffffffffffffff, 0x0, .ok) := by decide
/-- R74 example. -/
theorem test_shl256_by_200 :
    answer 0#2 0x1900024
      0x8000000000000000000000000000000000000000000000000000000000000001 0x0 =
      some (0x100000000000000000000000000000000000000000000000000, 0x0, .ok) := by decide
/-- 95 L2.3. -/
theorem test_shr256_across_words :
    answer 0#2 0x20025
      0x4000000000000000300000000000000020000000000000001 0x0 =
      some (0x2000000000000000180000000000000010000000000000000, 0x0, .ok) := by decide
/-- 95 L2.3. -/
theorem test_getw256_word_two :
    answer 0#2 0x40027
      0x4000000000000000300000000000000020000000000000001 0x0 =
      some (0x3, 0x0, .ok) := by decide
/-- 95 L2.3. -/
theorem test_setw256_word_two_only :
    answer 0#2 0x40028
      0x4000000000000000300000000000000020000000000000001 0xaa =
      some (0x400000000000000aa00000000000000020000000000000001, 0x0, .ok) := by decide
/-- R77 example, 90 C8. -/
theorem test_setw256_word_three :
    answer 0#2 0x60028
      0x0 0xabcd =
      some (0xabcd000000000000000000000000000000000000000000000000, 0x0, .ok) := by decide
/-- R78 example. -/
theorem test_tow256_be_reverses :
    answer 0#2 0x10029
      0x4000000000000000300000000000000020000000000000001 0x0 =
      some (0x1000000000000000200000000000000030000000000000004, 0x0, .ok) := by decide
/-- R79 example. -/
theorem test_fromw256_be_reverses :
    answer 0#2 0x1002a
      0x1000000000000000200000000000000030000000000000004 0x0 =
      some (0x4000000000000000300000000000000020000000000000001, 0x0, .ok) := by decide
/-- R81 example. -/
theorem test_shrx64_jams_incoming_word :
    answer 0#2 0x80030
      0x28 0x1 =
      some (0x80000000000000010000000000000002, 0x0, .ok) := by decide
/-- 95 L2.4. -/
theorem test_shrx64_by_65 :
    answer 0#2 0x820030
      0x8000000000000001 0x0 =
      some (0x10000000000000000, 0x0, .ok) := by decide
/-- R82 example. -/
theorem test_shrx128_by_66_jams_low_word :
    answer 0#2 0x840031
      0xf0000000000000001 0x0 =
      some (0xc00000000000000100000000000000000000000000000003, 0x0, .ok) := by decide
/-- 95 L2.4. -/
theorem test_shrx128_by_128 :
    answer 0#2 0x1000031
      0x10000000000000000 0x0 =
      some (0x100000000000000000000000000000000, 0x0, .ok) := by decide
/-- 95 L1.6, 92 D22. -/
theorem test_rndu32_no_wrap_of_the_sum :
    answer 0#2 0x840
      0xffffffffffffffff 0x0 =
      some (0xffffffff, 0x10, .ok) := by decide
/-- 95 L2.5. -/
theorem test_rndu32_minus_half_ties_to_zero :
    answer 0#2 0x1840
      0x800 0x0 =
      some (0x0, 0x1, .ok) := by decide
/-- 95 L2.5. -/
theorem test_rndi32_minus_half_to_odd :
    answer 0#2 0x1e41
      0x800 0x0 =
      some (0xffffffff, 0x1, .ok) := by decide
/-- R88 example. -/
theorem test_rndu64_tie_to_even :
    answer 0#2 0x842
      0x3 0x8000000000000000 =
      some (0x4, 0x1, .ok) := by decide
/-- 95 L2.5. -/
theorem test_rndu64_minus_one_under_x87 :
    answer 2#2 0x1b42
      0x1 0x0 =
      some (0xffffffffffffffff, 0x10, .ok) := by decide
/-- 95 L2.5. -/
theorem test_rndi64_minus_2_63_and_half :
    answer 0#2 0x1843
      0x8000000000000000 0x8000000000000000 =
      some (0x8000000000000000, 0x1, .ok) := by decide
/-- 95 L1.5. -/
theorem test_rndi64_to_odd_without_ex :
    answer 0#2 0x643
      0x4 0x1 =
      some (0x5, 0x0, .ok) := by decide
/-- R99 example. -/
theorem test_pconstu32_nan_arm :
    answer 0#2 0x4050
      0x0 0x0 =
      some (0x0, 0x0, .ok) := by decide
/-- R100 example. -/
theorem test_pconsti32_pos_sse :
    answer 3#2 0x51
      0x0 0x0 =
      some (0x80000000, 0x0, .ok) := by decide
/-- R101 example. -/
theorem test_pconstu64_neg_x87 :
    answer 2#2 0x2052
      0x0 0x0 =
      some (0xffffffffffffffff, 0x0, .ok) := by decide
/-- R102 example. -/
theorem test_pconsti64_neg_arm :
    answer 1#2 0x2053
      0x0 0x0 =
      some (0x8000000000000000, 0x0, .ok) := by decide
/-- R103 example. -/
theorem test_defnan_f32_x87 :
    answer 2#2 0x2054
      0x0 0x0 =
      some (0xffc00000, 0x0, .ok) := by decide
/-- R103 example. -/
theorem test_defnan_x80_arm :
    answer 0#2 0x6054
      0x0 0x0 =
      some (0x7fffc000000000000000, 0x0, .ok) := by decide
/-- 95 L2.6. -/
theorem test_propnan_x80_arm_quiets_bits_63_62 :
    answer 0#2 0x6055
      0x7fff8000000000000001 0xffffc000000000000000 =
      some (0x7fffc000000000000001, 0x10, .ok) := by decide
/-- 95 L1.7. -/
theorem test_propnan_f32_x87_positive_wins_tie :
    answer 2#2 0x2055
      0xffc00001 0x7fc00001 =
      some (0x7fc00001, 0x0, .ok) := by decide
/-- R109 example. -/
theorem test_rdpol_sse :
    answer 3#2 0x56
      0x0 0x0 =
      some (0x7, 0x0, .ok) := by decide
/-- R109 example. -/
theorem test_rdpol_arm_default :
    answer 1#2 0x56
      0x0 0x0 =
      some (0x1, 0x0, .ok) := by decide
/-- 95 L1.8. -/
theorem test_raise_overflow :
    answer 0#2 0x80060
      0x0 0x0 =
      some (0x0, 0x4, .ok) := by decide
/-- R111. -/
theorem test_resetf_from_reset :
    answer 0#2 0x61
      0x0 0x0 =
      some (0x0, 0x0, .ok) := by decide
/-- R114 example. -/
theorem test_rdrm_after_reset :
    answer 0#2 0x64
      0x0 0x0 =
      some (0x0, 0x0, .ok) := by decide

/-- 45_flags R112: no clear on read. -/
theorem test_rdflags_reads :
    nextWith (exec .rdflags { State.reset with flags := 0x13#5 }) (fun t => t.r == 0x13#256 && t.flags == 0x13#5) =
      true := by decide
/-- 45_flags R111: RM kept. -/
theorem test_resetf_keeps_rm :
    nextWith (exec .resetf { State.reset with flags := 0x15#5, rm := .towardPositive })
      (fun t => t.flags == 0#5 && t.rm == .towardPositive) = true := by decide
/-- 95 L2.7: FLAGS kept, code 6 stored. -/
theorem test_wrrm_odd :
    nextWith (exec (.wrrm .odd) { State.reset with flags := 0x08#5 })
      (fun t => t.flags == 0x08#5 && t.rm.code == 6#3) = true := by decide
/-- 95 L2.5: ODD_NEG_INCREMENT = Zero, -2.5 gives -1. -/
theorem test_rndi32_odd_zero :
    nextWith
      (exec (.rndi32 (.mode .odd) true true)
        { State.reset with a := 0x2800#256, params := { Params.default with oddNegIncrement := .zero } })
      (fun t => t.r == 0xFFFFFFFF#256 && t.flags == 0x01#5) = true := by decide
/-- 44_policy R100: the OPEN entry is in its domain, whichever it is. -/
theorem test_pconsti32_nan_in_domain (c : ArmFromNaN) :
    (armFromNaNValue 32 c).toNat ∈ [0, 0x80000000, 0x7FFFFFFF] := by cases c <;> decide

/-! ## Rejection, reset, idle, observation -/

/-- 60_exceptions R117, 95 L2.8: FLAGS and RM stay, R = 0, STATUS = ILLEGAL. -/
theorem test_reject_keeps_registers :
    nextWith
      (step ({ State.reset with flags := 0x11#5, rm := .towardPositive, r := 7#256 }.withFetchWord 32 0x26))
      (fun t => t.flags == 0x11#5 && t.rm == .towardPositive && t.r == 0#256 && t.status == .illegal) = true := by
  decide
/-- 70_reset R127, 95 L2.8: reset with cfg_policy = 2, a command issued meanwhile is not executed. -/
theorem test_reset_slot :
    nextWith
      (step
        { State.reset with
          flags := 0x1F#5, rm := .odd
          pending := [{ rst := true, cfgPolicy := 2#2, request := some { cmd := 0x003E0060#32, a := 0#256, b := 0#256 } }] })
      (fun t => t.flags == 0#5 && t.rm.code == 0#3 && t.policy.code == 2#2 && t.status == .ok) = true := by decide
/-- 70_reset R129: nothing pending, nothing changes. -/
theorem test_idle : nextWith (step State.reset) (fun t => t.flags == 0#5 && t.pending == []) = true := by decide
/-- 95 P3 step 5: one response, ILLEGAL. -/
theorem test_observe_illegal :
    (observe (State.reset.withFetchWord 32 0x01900014)).map (fun o => o.responses) =
      some [{ r := 0#256, status := .illegal }] := by decide

/-! ## Witnesses: for every statement with hypotheses, a state and operands that meet them together -/

/-- A slot that issues the word `w` on zero buses. -/
def slotOf (w : Command) : HostInput :=
  { rst := false, cfgPolicy := 1#2, request := some { cmd := w, a := 0#256, b := 0#256 } }

/-- A slot with rst asserted and a command issued meanwhile. -/
def resetSlot : HostInput :=
  { rst := true, cfgPolicy := 3#2, request := some { cmd := 0x003E0060#32, a := 0#256, b := 0#256 } }

/-- A slot in which the host drives nothing but the strap. -/
def idleSlot : HostInput := { rst := false, cfgPolicy := 2#2, request := none }

/-- Reset with these slots to come. -/
def waiting (xs : List HostInput) : State := { State.reset with pending := xs }

/-- Reset with these operands. -/
def onBuses (a b : Nat) : State := { State.reset with a := BitVec.ofNat 256 a, b := BitVec.ofNat 256 b }

theorem witness_DecodeInvertsEncode :
    (Instr.shl128 127#8).wf = true ∧ (Instr.raise 31#8).wf = true ∧ (Instr.getw256 3#8).wf = true := by decide

theorem witness_EncodeInvertsDecode : ∃ (w : Command) (i : Instr), decode w = .ok i :=
  ⟨0x00FE0014#32, .shl128 127#8, by decide⟩

theorem witness_StepRunsTheDecodedCommand :
    ∃ (s : State) (x : HostInput) (rest : List HostInput) (q : Request) (i : Instr),
      s.pending = x :: rest ∧ x.rst = false ∧ x.request = some q ∧ decode q.cmd = .ok i :=
  ⟨waiting [slotOf 0x00000011#32, idleSlot], slotOf 0x00000011#32, [idleSlot],
    { cmd := 0x00000011#32, a := 0#256, b := 0#256 }, .add128, by decide⟩

theorem witness_IllegalCommandIsRejected :
    ∃ (s : State) (x : HostInput) (rest : List HostInput) (q : Request),
      s.pending = x :: rest ∧ x.rst = false ∧ x.request = some q ∧ ¬LegalWord q.cmd.toNat :=
  ⟨waiting [slotOf 0x01000014#32], slotOf 0x01000014#32, [], { cmd := 0x01000014#32, a := 0#256, b := 0#256 },
    by decide⟩

theorem witness_LegalWord : LegalWord 0x00FE0014 ∧ LegalWord 0x00000740 ∧ LegalWord 0x00008055 := by decide

theorem witness_IllFormedTermIsRejected : ∃ i : Instr, i.wf = false := ⟨.setw256 4#8, by decide⟩

theorem witness_ResetSlotPerformsTheResetAction :
    ∃ (s : State) (x : HostInput) (rest : List HostInput), s.pending = x :: rest ∧ x.rst = true :=
  ⟨waiting [resetSlot], resetSlot, [], by decide⟩

theorem witness_IdleBlockHoldsItsState :
    (∃ s : State, s.pending = []) ∧
    ∃ (s : State) (x : HostInput) (rest : List HostInput),
      s.pending = x :: rest ∧ x.rst = false ∧ x.request = none :=
  ⟨⟨State.reset, rfl⟩, waiting [idleSlot], idleSlot, [], by decide⟩

theorem witness_StepKeepsInvariant :
    ∃ s t : State, Inv s ∧ step s = .next t ∧ t.status = .illegal ∧ t.flags = 0x11#5 :=
  ⟨{ waiting [slotOf 0x00000026#32] with flags := 0x11#5 }, _, ⟨by decide, by decide⟩, rfl, rfl, rfl⟩

theorem witness_StepKeepsInvariant_reset_held :
    ∃ s t : State, Inv s ∧ s.rst = true ∧ step s = .next t ∧ t.flags = 0x1F#5 :=
  ⟨{ waiting [slotOf 0x003E0060#32] with rst := true }, _, ⟨by decide, by decide⟩, rfl, rfl, rfl⟩

theorem witness_FlagsChangeOnlyInThreeWays :
    (∃ s t : State, step s = .next t ∧ s.pending = []) ∧
    (∃ (s t : State) (x : HostInput) (rest : List HostInput),
      step s = .next t ∧ s.pending = x :: rest ∧ clearsFlags x = true) ∧
    ∃ (s t : State) (x : HostInput) (rest : List HostInput),
      step s = .next t ∧ s.pending = x :: rest ∧ clearsFlags x = false ∧ t.flags = 0x1F#5 :=
  ⟨⟨State.reset, State.reset, rfl, rfl⟩,
    ⟨{ waiting [slotOf 0x00000061#32] with flags := 0x15#5 }, _, slotOf 0x00000061#32, [], rfl, rfl, by decide⟩,
    ⟨waiting [slotOf 0x003E0060#32], _, slotOf 0x003E0060#32, [], rfl, rfl, by decide, rfl⟩⟩

theorem witness_FlagsNeverLostBetweenClears :
    ∃ (k : Nat) (s t : State), Host.Core.run Sys2Proof.core k s = .next t ∧
      (∀ x ∈ s.pending.take k, clearsFlags x = false) ∧ k = 2 ∧ s.flags = 0x01#5 ∧ t.flags = 0x05#5 :=
  ⟨2, { waiting [slotOf 0x00080060#32, idleSlot] with flags := 0x01#5 }, _, rfl, by decide, rfl, rfl, rfl⟩

theorem witness_PolicyConstantBetweenResets :
    ∃ (k : Nat) (s t : State), Host.Core.run Sys2Proof.core k s = .next t ∧
      (∀ x ∈ s.pending.take k, x.rst = false) ∧ k = 1 ∧ t.cfgPolicy = 2#2 :=
  ⟨1, waiting [idleSlot], _, rfl, by decide, rfl, rfl⟩

theorem witness_RoundingModeWrittenOnlyByWrrm :
    (∃ (s t : State) (x : HostInput) (rest : List HostInput),
      s.pending = x :: rest ∧ step s = .next t ∧ executes x = some (.wrrm .odd)) ∧
    ∃ (s t : State) (x : HostInput) (rest : List HostInput),
      s.pending = x :: rest ∧ step s = .next t ∧ (∀ m, executes x ≠ some (.wrrm m)) ∧ x.rst = false ∧
        s.rm = .odd :=
  ⟨⟨waiting [slotOf 0x00000663#32], _, slotOf 0x00000663#32, [], rfl, rfl, by decide⟩,
    ⟨{ waiting [slotOf 0x00000064#32] with rm := .odd }, _, slotOf 0x00000064#32, [], rfl, rfl,
      by intro m; cases m <;> decide, rfl, rfl⟩⟩

theorem witness_RunIsSafeExactlyWhenWordsAreLegal : ∃ s : State, Safe s ∧ s.pending.length = 2 :=
  ⟨waiting [slotOf 0x00000011#32, slotOf 0x00000026#32], by decide⟩

theorem witness_UnreadBusBitsAreIgnored :
    ∃ (i : Instr) (s : State) (a' b' : Bus),
      a'.toNat % 2 ^ bitsOfA i = s.a.toNat % 2 ^ bitsOfA i ∧
      b'.toNat % 2 ^ bitsOfB i = s.b.toNat % 2 ^ bitsOfB i ∧ a' ≠ s.a ∧ b' ≠ s.b :=
  ⟨.setw128 1#8, onBuses 5 6, BitVec.ofNat 256 (2 ^ 128 + 5), BitVec.ofNat 256 (2 ^ 64 + 6), by decide⟩

theorem witness_CompareFirstDifferingWord256 :
    (∃ s : State, ∀ i < 4, wordOf s.a.toNat i = wordOf s.b.toNat i) ∧
    (∃ s : State, wordOf s.a.toNat 0 ≠ wordOf s.b.toNat 0 ∧
      ∀ j < 4, 0 < j → wordOf s.a.toNat j = wordOf s.b.toNat j) ∧
    ∃ s : State, wordOf s.a.toNat 3 ≠ wordOf s.b.toNat 3 ∧
      ∀ j < 4, 3 < j → wordOf s.a.toNat j = wordOf s.b.toNat j :=
  ⟨⟨onBuses 7 7, by decide⟩, ⟨onBuses 7 8, by decide⟩, ⟨onBuses (2 ^ 192) (2 ^ 192 - 1), by decide⟩⟩

theorem witness_immediates_at_their_bounds :
    ((127#8).toNat ≤ 127 ∧ 127 < (128#8).toNat) ∧ ((0#8).toNat ≤ 1 ∧ (1#8).toNat ≤ 1 ∧ 1 < (2#8).toNat) ∧
    ((3#8).toNat ≤ 3 ∧ 3 < (4#8).toNat) ∧ (31#8).toNat ≤ 31 ∧ 31 < (32#8).toNat := by decide

/-- RAISE #0x0E sets the host's three flags; RNDU32.RNE of a value out of range sets Invalid, RNDU32.RNE.X of 2.5
Inexact (60_exceptions R116). -/
theorem witness_EachFlagIsSetOnlyByItsCommands :
    nextWith (step (waiting [slotOf 0x001C0060#32])) (fun t => t.flags == 0x0E#5) = true ∧
    nextWith (step { onBuses 0xFFFFFFFF800 0 with pending := [(onBuses 0xFFFFFFFF800 0).commandSlot 0x00000040#32] })
      (fun t => t.flags.getLsbD 4) = true ∧
    nextWith (step { onBuses 0x2800 0 with pending := [(onBuses 0x2800 0).commandSlot 0x00000840#32] })
      (fun t => t.flags.getLsbD 0) = true ∧ State.reset.flags = 0#5 := by decide

theorem witness_ShiftJam64ByDistance :
    (0#8).toNat = 0 ∧ (0 < (1#8).toNat ∧ (63#8).toNat < 64) ∧ (64#8).toNat = 64 ∧ 64 < (65#8).toNat := by decide

theorem witness_ShiftJam128ByDistance :
    (0 < (1#8).toNat ∧ (63#8).toNat < 64) ∧ (64 < (65#8).toNat ∧ (127#8).toNat < 128) ∧
    (128#8).toNat = 128 ∧ 128 < (129#8).toNat := by decide

theorem witness_ExtraWordClassifiesTheDiscardedPart :
    ∃ (s : State) (d q : Nat), d < q ∧ Classifies (u64 s.b) d q ∧ 0 < d :=
  ⟨onBuses 0x28 (2 ^ 63), 1, 2, by decide⟩

/-- `lo ≤ q < hi`. -/
def within (lo hi q : Int) : Bool := decide (lo ≤ q) && decide (q < hi)

/-- The largest value in range and the smallest out of range, RNDU32.RNE (95 L2.5). -/
theorem witness_RoundToU32IsExact :
    within 0 (2 ^ 32) (roundExact .nearestEven (signedValue false (u64 (onBuses 0xFFFFFFFF7FF 0).a)) (2 ^ 12)) = true ∧
    within 0 (2 ^ 32) (roundExact .nearestEven (signedValue false (u64 (onBuses 0xFFFFFFFF800 0).a)) (2 ^ 12)) = false := by
  decide

/-- -2^31 under Odd with Full, and -2^31 - 1/2 (95 L2.5). -/
theorem witness_RoundToI32IsExact :
    State.reset.params.oddNegIncrement = .full ∧
    within (-2 ^ 31) (2 ^ 31) (roundExact .odd (signedValue true (u64 (onBuses 0x80000000000 0).a)) (2 ^ 12)) = true ∧
    within (-2 ^ 31) (2 ^ 31) (roundExact .odd (signedValue true (u64 (onBuses 0x80000000800 0).a)) (2 ^ 12)) = false := by
  decide

/-- The significand and extra word of a 64-bit path as one number. -/
def joined (sig extra : Nat) : Nat := u64 (onBuses sig extra).a * 2 ^ 64 + u64 (onBuses sig extra).b

/-- 2^64 - 1 and a half under TowardZero and NearestEven (95 L2.5). -/
theorem witness_RoundToU64IsExact :
    within 0 (2 ^ 64) (roundExact .towardZero (signedValue false (joined (2 ^ 64 - 1) (2 ^ 63))) (2 ^ 64)) = true ∧
    within 0 (2 ^ 64) (roundExact .nearestEven (signedValue false (joined (2 ^ 64 - 1) (2 ^ 63))) (2 ^ 64)) = false := by
  decide

/-- -2^63 - 1/2 under NearestEven and Odd (95 L2.5). -/
theorem witness_RoundToI64IsExact :
    State.reset.params.oddNegIncrement = .full ∧
    within (-2 ^ 63) (2 ^ 63) (roundExact .nearestEven (signedValue true (joined (2 ^ 63) (2 ^ 63))) (2 ^ 64)) = true ∧
    within (-2 ^ 63) (2 ^ 63) (roundExact .odd (signedValue true (joined (2 ^ 63) (2 ^ 63))) (2 ^ 64)) = false := by
  decide

/-- The four clauses at their bounds. -/
theorem witness_SignedOddWithZeroIncrement :
    (∃ s : State, s.params.oddNegIncrement = .zero ∧ modeInForce .dyn s.rm = .odd) ∧
    u64 (onBuses 0x80000000FFF 0).a / 2 ^ 12 ≤ 2 ^ 31 ∧ 2 ^ 31 < u64 (onBuses 0x80000001000 0).a / 2 ^ 12 ∧
    u64 (onBuses (2 ^ 63) 0).a ≤ 2 ^ 63 ∧ 2 ^ 63 < u64 (onBuses (2 ^ 63 + 1) 0).a :=
  ⟨⟨{ State.reset with rm := .odd, params := { Params.default with oddNegIncrement := .zero } }, by decide⟩,
    by decide⟩

/-- 2.5 + 2^-76 of 95 P4, and a value out of range. -/
theorem witness_RoundToOddAvoidsDoubleRounding :
    roundExact .nearestEven (signedValue false (u64 (onBuses 0x2800 1).a * 2 ^ 64 + u64 (onBuses 0x2800 1).b))
      (2 ^ 76) = 3 ∧
    ¬roundExact .nearestEven (signedValue false (u64 (onBuses (2 ^ 45) 1).a * 2 ^ 64 + u64 (onBuses (2 ^ 45) 1).b))
      (2 ^ 76) < 2 ^ 32 := by decide

theorem witness_RoundingDependsOnlyOnItsInputs :
    ∃ s s' : State, u64 s.a = u64 s'.a ∧ u64 s.b = u64 s'.b ∧ s.policy = s'.policy ∧ s.params = s'.params ∧
      s.rm = s'.rm ∧ s.flags ≠ s'.flags ∧ s.a ≠ s'.a :=
  ⟨onBuses 0x2800 1, { onBuses (2 ^ 64 + 0x2800) (2 ^ 200 + 1) with flags := 0x1F#5 }, by decide⟩

theorem witness_default_parameters : State.reset.params = .default ∧ State.reset.params.arm = .default := by decide

theorem witness_PropagationRaisesInvalidForSignaling :
    NaNPattern .x80 (nanBits .x80 (onBuses 0x7FFF8000000000000001 0).a) ∧
    SignalingPattern .f16 (nanBits .f16 (onBuses 0x7C01 0).a) ∧
    ¬NaNPattern .f32 (nanBits .f32 (onBuses 0x7F800000 0).a) := by decide

theorem witness_ArmPropagationSelects :
    (State.resetWith 0#2).policy = .armPropagate ∧ (State.resetWith 1#2).policy = .armDefaultNaN ∧
    (State.resetWith 1#2).params.arm = .default := by decide

theorem witness_X86PropagationSelects :
    (State.resetWith 2#2).policy = .x87 ∧
    ((State.resetWith 3#2).policy = .sse ∧ (State.resetWith 3#2).params.sseNanRule = .largerMagnitude) ∧
    ∃ s : State, s.policy = .sse ∧ s.params.sseNanRule = .firstNaN :=
  ⟨by decide, by decide, { State.resetWith 3#2 with params := { Params.default with sseNanRule := .firstNaN } },
    by decide⟩

end Sys2Proof.Tests
end

section
/-!
The rules of a slot and the obligations about FLAGS, RM, POLICY and the observation of a run (10_state).
The rules come first: what a command merges into FLAGS, what the oldest slot makes a step do, and one
induction over runs. The obligations are read off them.
-/

namespace Sys2Proof.Machine

open Sys2Proof.Safety

/-! ## Commands that only merge into FLAGS (10_state R20 (a)) -/

/-- The outcome is an answer that keeps RM, POLICY and the inputs of `s` and changes FLAGS by an OR merge
alone, of nothing unless `may` holds. -/
def OrMerges (may : Prop) (s : State) (o : Result) : Prop :=
  ∃ (r : Bus) (st : Status) (m : FlagSet) (k : Bool),
    o = .next { s with r := r, status := st, flags := s.flags ||| m, refusedMark := k } ∧ (m ≠ 0#5 → may)

theorem complete_orMerges (may : Prop) (s : State) (r : Bus) : OrMerges may s (complete s r) :=
  ⟨r, .ok, 0#5, s.refusedMark, by simp [complete], fun h => absurd rfl h⟩

theorem reject_orMerges (may : Prop) (s : State) : OrMerges may s (reject s) :=
  ⟨0#256, .illegal, 0#5, true, by simp [reject], fun h => absurd rfl h⟩

theorem complete_raiseFlags_orMerges {may : Prop} (h : may) (s : State) (m : FlagSet) (r : Bus) :
    OrMerges may s (complete (s.raiseFlags m) r) :=
  ⟨r, .ok, m, s.refusedMark, rfl, fun _ => h⟩

theorem complete_raiseIf_orMerges {may : Prop} (h : may) (s : State) (c : Bool) (m : FlagSet) (r : Bus) :
    OrMerges may s (complete (s.raiseIf c m) r) := by
  cases c
  · exact complete_orMerges may s r
  · exact complete_raiseFlags_orMerges h s m r

theorem OrMerges.whenLegal {may : Prop} {s : State} {o : Result} (h : OrMerges may s o) (c : Bool) :
    OrMerges may s (whenLegal c s o) := by
  cases c
  · exact reject_orMerges may s
  · exact h

theorem settleRounding_orMerges {may : Prop} (h : may) {w : Nat} (s : State) (ex : Bool)
    (sentinel : BitVec w) (q : Rounded w) : OrMerges may s (settleRounding s ex sentinel q) := by
  obtain ⟨r, m, heq⟩ := settleRounding_effect s ex sentinel q
  exact ⟨r, .ok, m, s.refusedMark, heq, fun _ => h⟩

/-- Every command but RESETF and WRRM merges into FLAGS and writes no other register. -/
theorem exec_orMerges (i : Instr) (s : State) (hf : i ≠ .resetf) (hm : ∀ m, i ≠ .wrrm m) :
    OrMerges (mayRaise i = true) s (exec i s) := by
  cases i
  case resetf => exact absurd rfl hf
  case wrrm m => exact absurd rfl (hm m)
  case raise n => exact (complete_raiseFlags_orMerges rfl s _ _).whenLegal _
  case propnan w => exact complete_raiseIf_orMerges rfl s _ _ _
  case rndu32 | rndi32 | rndu64 | rndi64 => exact settleRounding_orMerges rfl s _ _ _
  case shl128 | shr128 | getw128 | setw128 | getw256 | setw256 =>
    exact (complete_orMerges _ s _).whenLegal _
  all_goals exact complete_orMerges _ s _

/-! ## FLAGS and RM after a command -/

theorem exec_resetf_flags {s t : State} (h : exec .resetf s = .next t) : t.flags = 0#5 := by
  rw [complete_next h]; rfl

theorem exec_wrrm_flags {m : RoundingMode} {s t : State} (h : exec (.wrrm m) s = .next t) :
    t.flags = s.flags := by
  rw [complete_next h]

theorem exec_wrrm_rm {m : RoundingMode} {s t : State} (h : exec (.wrrm m) s = .next t) : t.rm = m := by
  rw [complete_next h]

theorem exec_resetf_rm {s t : State} (h : exec .resetf s = .next t) : t.rm = s.rm := by
  rw [complete_next h]; rfl

theorem OrMerges.flags {may : Prop} {s t : State} (h : OrMerges may s (.next t)) :
    ∃ m : FlagSet, t.flags = s.flags ||| m ∧ (m ≠ 0#5 → may) := by
  obtain ⟨r, st, m, k, ht, hmay⟩ := h
  cases ht
  exact ⟨m, rfl, hmay⟩

theorem OrMerges.rm {may : Prop} {s t : State} (h : OrMerges may s (.next t)) : t.rm = s.rm := by
  obtain ⟨r, st, m, k, ht, -⟩ := h
  cases ht
  rfl

theorem exec_flags_of_ne_resetf {i : Instr} {s t : State} (hi : i ≠ .resetf) (h : exec i s = .next t) :
    ∃ m : FlagSet, t.flags = s.flags ||| m ∧ (m ≠ 0#5 → mayRaise i = true) := by
  by_cases hw : ∃ m, i = .wrrm m
  · obtain ⟨m, rfl⟩ := hw
    exact ⟨0#5, by simp [exec_wrrm_flags h], fun hne => absurd rfl hne⟩
  · exact (h ▸ exec_orMerges i s hi (not_exists.mp hw)).flags

theorem exec_rm_of_ne_wrrm {i : Instr} {s t : State} (hi : ∀ m, i ≠ .wrrm m) (h : exec i s = .next t) :
    t.rm = s.rm := by
  by_cases hf : i = .resetf
  · subst hf
    exact exec_resetf_rm h
  · exact (h ▸ exec_orMerges i s hf hi).rm

/-! ## What the oldest slot makes a step do -/

theorem executes_eq_some_iff {x : HostInput} {i : Instr} :
    executes x = some i ↔ x.rst = false ∧ ∃ q, x.request = some q ∧ decode q.cmd = .ok i := by
  unfold executes
  cases x.rst <;> cases x.request with
  | none => simp
  | some q => cases hd : decode q.cmd <;> simp [hd]

theorem clearsFlags_iff {x : HostInput} :
    clearsFlags x = true ↔ x.rst = true ∨ executes x = some .resetf := by
  simp [clearsFlags]

section
variable {s : State} {x : HostInput} {rest : List HostInput} (hp : s.pending = x :: rest)
include hp

theorem step_of_rst (hr : x.rst = true) : step s = .next (resetAction (s.accept x rest)) := by
  simp [step_cons hp, runSlot, hr]

theorem step_of_no_request (hr : x.rst = false) (hq : x.request = none) :
    step s = .next (s.accept x rest) := by
  simp [step_cons hp, runSlot, hr, hq]

theorem step_of_request {q : Request} (hr : x.rst = false) (hq : x.request = some q) :
    step s = issue (s.accept x rest) := by
  simp [step_cons hp, runSlot, hr, hq]

theorem step_of_executes {i : Instr} (hx : executes x = some i) : step s = exec i (s.accept x rest) := by
  obtain ⟨hr, q, hq, hd⟩ := executes_eq_some_iff.mp hx
  rw [step_of_request hp hr hq]
  simp [issue, hq, hd]

/-- Outside reset a slot that executes nothing is idle or rejected. -/
theorem step_of_executes_none (hr : x.rst = false) (hx : executes x = none) :
    step s = .next (s.accept x rest) ∨ step s = reject (s.accept x rest) := by
  cases hq : x.request with
  | none => exact .inl (step_of_no_request hp hr hq)
  | some q =>
    refine .inr ((step_of_request hp hr hq).trans ?_)
    cases hd : decode q.cmd with
    | ok i => simp [executes_eq_some_iff.mpr ⟨hr, q, hq, hd⟩] at hx
    | error c => simp [issue, hq, hd]

theorem step_of_decode {q : Request} {i : Instr} (hr : x.rst = false) (hq : x.request = some q)
    (hd : decode q.cmd = .ok i) :
    step s = exec i { s with
      pending := rest, rst := false, cfgPolicy := x.cfgPolicy, cmd := q.cmd, a := q.a, b := q.b } := by
  rw [step_of_executes hp (executes_eq_some_iff.mpr ⟨hr, q, hq, hd⟩), State.accept_request s x rest q hq, hr]

/-- Every slot is answered; it is removed, keeps the parameters, and keeps POLICY outside reset. -/
theorem step_effect : ∃ t : State, step s = .next t ∧ t.pending = rest ∧ t.params = s.params ∧
    (x.rst = false → t.policy = s.policy) := by
  rw [step_cons hp]
  obtain ⟨hr, h⟩ | ⟨-, -, h⟩ | ⟨-, -, h⟩ := runSlot_cases x (s.accept x rest)
  · exact ⟨_, h, by simp [hr]⟩
  · exact ⟨_, h, by simp⟩
  · obtain ⟨r, st, f, m, k, hi⟩ := issue_effect (s.accept x rest)
    exact ⟨_, h.trans hi, by simp⟩

variable {t : State}

theorem step_frame (h : step s = .next t) :
    t.pending = rest ∧ t.params = s.params ∧ (x.rst = false → t.policy = s.policy) := by
  obtain ⟨u, hu, hframe⟩ := step_effect hp
  cases hu.symm.trans h
  exact hframe

theorem step_flags_of_clears (h : step s = .next t) (hc : clearsFlags x = true) : t.flags = 0#5 := by
  obtain hr | hx := clearsFlags_iff.mp hc
  · rw [step_of_rst hp hr] at h
    cases h
    rfl
  · rw [step_of_executes hp hx] at h
    exact exec_resetf_flags h

theorem step_flags_of_not_clears (h : step s = .next t) (hc : clearsFlags x = false) :
    ∃ m : FlagSet, t.flags = s.flags ||| m ∧
      (m ≠ 0#5 → ∃ i : Instr, executes x = some i ∧ mayRaise i = true) := by
  have ⟨hr, hne⟩ : x.rst = false ∧ executes x ≠ some .resetf := by simpa [clearsFlags] using hc
  cases hx : executes x with
  | some i =>
    rw [step_of_executes hp hx] at h
    obtain ⟨m, hm, hmay⟩ := exec_flags_of_ne_resetf (by simpa [hx] using hne) h
    exact ⟨m, by simpa using hm, fun hm0 => ⟨i, rfl, hmay hm0⟩⟩
  | none =>
    refine ⟨0#5, ?_, fun hm0 => absurd rfl hm0⟩
    obtain hs | hs := step_of_executes_none hp hr hx <;> rw [hs] at h
    · cases h
      simp
    · simp [reject_next h]

theorem step_rm_of_no_wrrm (h : step s = .next t) (hw : ∀ m, executes x ≠ some (.wrrm m))
    (hr : x.rst = false) : t.rm = s.rm := by
  cases hx : executes x with
  | some i =>
    rw [step_of_executes hp hx] at h
    simpa using exec_rm_of_ne_wrrm (by simpa [hx] using hw) h
  | none =>
    obtain hs | hs := step_of_executes_none hp hr hx <;> rw [hs] at h
    · cases h
      simp
    · simp [reject_next h]

end

theorem withFetchWord_toNat (s : State) (w : Command) :
    s.withFetchWord 32 w.toNat = { s with pending := s.commandSlot w :: s.pending } := by
  rw [State.withFetchWord, Nat.mod_eq_of_lt w.isLt, BitVec.ofNat_toNat, BitVec.setWidth_eq]

/-! ## Runs -/

/-- A step always answers, and the oldest slot, if any, is gone. -/
theorem step_total (s : State) : ∃ t : State, step s = .next t ∧ t.pending = s.pending.tail := by
  cases hp : s.pending with
  | nil => exact ⟨s, step_nil hp, hp⟩
  | cons x rest =>
    obtain ⟨t, ht, hrest, -⟩ := step_effect hp
    exact ⟨t, ht, hrest⟩

theorem run_succ {s u : State} (h : step s = .next u) (k : Nat) :
    Host.Core.run core (k + 1) s = Host.Core.run core k u := by
  have hs : core.step s = .next u := h
  simp only [Host.Core.run, hs]

theorem run_total (k : Nat) (s : State) : ∃ t : State, Host.Core.run core k s = .next t := by
  induction k generalizing s with
  | zero => exact ⟨s, rfl⟩
  | succ k ih =>
    obtain ⟨u, hu, -⟩ := step_total s
    rw [run_succ hu]
    exact ih u

/-- A reflexive and transitive relation that every step keeps whose slot, if it has one, meets `P` holds
between the ends of a run all of whose slots meet `P`. -/
theorem run_induction {P : HostInput → Prop} {R : State → State → Prop} (refl : ∀ s, R s s)
    (trans : ∀ s u t, R s u → R u t → R s t)
    (slot : ∀ s u x rest, s.pending = x :: rest → step s = .next u → P x → R s u)
    (k : Nat) (s t : State) (h : Host.Core.run core k s = .next t) (hP : ∀ x ∈ s.pending.take k, P x) :
    R s t := by
  induction k generalizing s with
  | zero =>
    cases h
    exact refl _
  | succ k ih =>
    obtain ⟨u, hu, hrest⟩ := step_total s
    rw [run_succ hu] at h
    cases hp : s.pending with
    | nil =>
      cases (step_nil hp).symm.trans hu
      exact ih _ h (by simp [hp])
    | cons x rest =>
      rw [hp, List.take_succ_cons, List.forall_mem_cons] at hP
      refine trans s u t (slot s u x rest hp hu hP.1) (ih u h ?_)
      simpa [hrest, hp] using hP.2

/-- A run answers the observed commands among the slots it drives, one response each. -/
theorem responses_length (k : Nat) (s : State) :
    (responses k s).length = ((s.pending.take k).filter HostInput.observed).length := by
  induction k generalizing s with
  | zero => simp [responses]
  | succ k ih =>
    obtain ⟨u, hu, hrest⟩ := step_total s
    cases hp : s.pending with
    | nil => simp [responses, hu, State.answersCommand, hp, ih, hrest]
    | cons x rest =>
      cases hx : x.observed <;> simp [responses, hu, State.answersCommand, hp, ih, hrest, hx]

/-! ## The obligations -/

/-- Settles O14: the slot clears FLAGS or merges into it. -/
theorem flagsChangeOnlyInThreeWays : Obligations.FlagsChangeOnlyInThreeWays := by
  intro s t h
  refine ⟨fun hp => ?_, fun x rest hp => ⟨step_flags_of_clears hp h, step_flags_of_not_clears hp h⟩⟩
  rw [step_nil hp] at h
  cases h
  rfl

/-- Settles O15: an OR merge loses no flag, and losing no flag is transitive along a run. -/
theorem flagsNeverLostBetweenClears : Obligations.FlagsNeverLostBetweenClears := by
  refine run_induction (P := fun x => clearsFlags x = false)
    (R := fun s t => s.flags &&& t.flags = s.flags) (fun s => BitVec.and_self) ?_ ?_
  · intro s u t hsu hut
    rw [← hsu, BitVec.and_assoc, hut]
  · intro s u x rest hp hu hc
    obtain ⟨m, hm, -⟩ := step_flags_of_not_clears hp hu hc
    rw [hm]
    ext j
    simp +contextual

/-- Settles O17: `step_frame` along a run. -/
theorem policyConstantBetweenResets : Obligations.PolicyConstantBetweenResets := by
  intro k s t h
  constructor
  · refine run_induction (P := fun _ => True) (R := fun s t => t.params = s.params)
      (fun s => rfl) (fun s u t hsu hut => hut.trans hsu) ?_ k s t h (fun _ _ => trivial)
    intro s u x rest hp hu _
    obtain ⟨-, hparams, -⟩ := step_frame hp hu
    exact hparams
  · refine run_induction (P := fun x => x.rst = false) (R := fun s t => t.policy = s.policy)
      (fun s => rfl) (fun s u t hsu hut => hut.trans hsu) ?_ k s t h
    intro s u x rest hp hu hr
    obtain ⟨-, -, hpolicy⟩ := step_frame hp hu
    exact hpolicy hr

/-- Settles O18: WRRM writes the mode it names, and no other command writes RM. -/
theorem roundingModeWrittenOnlyByWrrm : Obligations.RoundingModeWrittenOnlyByWrrm := by
  intro s t x rest hp h
  refine ⟨fun m hx => ?_, step_rm_of_no_wrrm hp h⟩
  rw [step_of_executes hp hx] at h
  exact exec_wrrm_rm h

/-- Settles O20: the run answers (`run_total`), and its responses are counted by `responses_length`. -/
theorem observationHasOneResponsePerCommand : Obligations.ObservationHasOneResponsePerCommand := by
  intro s
  obtain ⟨t, ht⟩ := run_total s.pending.length s
  exact ⟨_, t, by rw [observe, ht], ht, by simp [responses_length], rfl, rfl, rfl⟩

/-- Settles O5: a slot whose word decodes runs the command, and a fetched word is such a slot. -/
theorem stepRunsTheDecodedCommand : Obligations.StepRunsTheDecodedCommand := by
  refine ⟨fun s x rest q i hp hr hq hd => step_of_decode hp hr hq hd, fun s w i hd => ?_⟩
  rw [withFetchWord_toNat]
  exact step_of_decode (x := s.commandSlot w) (q := ⟨w, s.a, s.b⟩) rfl rfl rfl hd

/-- Settles O9: POLICY reads back the strap, the other registers are constants. -/
theorem resetValuesForEveryStrap : Obligations.ResetValuesForEveryStrap :=
  fun cfg => ⟨rfl, rfl, policy_code_ofCode cfg, rfl, rfl⟩

/-- Settles O13: after reset STATUS is OK and rst is released, so neither clause has a case. -/
theorem invariantHoldsAfterReset : Obligations.InvariantHoldsAfterReset :=
  fun _ => { illegal_is_silent := nofun, reset_is_held := nofun }

end Sys2Proof.Machine
end

section
/-!
The obligation about later commands (20_memory R38). Replacing the slots still pending commutes with every
meaning, so the state a slot leads to is fixed before it is known which slots follow.
-/

namespace Sys2Proof.Machine

/-- The same state with the slots `l` still to drive. -/
def State.withPending (l : List HostInput) (s : State) : State := { s with pending := l }

/-- The same outcome, with the slots `l` still to drive if it is an answer. -/
def Result.withPending (l : List HostInput) : Result → Result
  | .next t => .next (t.withPending l)
  | .fault f => .fault f
  | .refused q => .refused q

section
variable (l : List HostInput) (s : State)

/-! ## The shared operations do not read what is pending -/

theorem complete_withPending (r : Bus) :
    complete (s.withPending l) r = Result.withPending l (complete s r) := rfl

theorem reject_withPending : reject (s.withPending l) = Result.withPending l (reject s) := rfl

theorem resetAction_withPending : resetAction (s.withPending l) = (resetAction s).withPending l := rfl

theorem raiseIf_withPending (c : Bool) (m : FlagSet) :
    (s.withPending l).raiseIf c m = (s.raiseIf c m).withPending l := by
  cases c <;> rfl

theorem complete_raiseIf_withPending (c : Bool) (m : FlagSet) (r : Bus) :
    complete ((s.withPending l).raiseIf c m) r = Result.withPending l (complete (s.raiseIf c m) r) := by
  rw [raiseIf_withPending, complete_withPending]

theorem whenLegal_withPending (c : Bool) (o : Result) :
    whenLegal c (s.withPending l) (Result.withPending l o) = Result.withPending l (whenLegal c s o) := by
  cases c
  · exact reject_withPending l s
  · rfl

theorem settleRounding_withPending {w : Nat} (ex : Bool) (sentinel : BitVec w) (q : Rounded w) :
    settleRounding (s.withPending l) ex sentinel q =
      Result.withPending l (settleRounding s ex sentinel q) := by
  cases q with
  | invalid => rfl
  | value z inexact => exact complete_raiseIf_withPending l s _ _ _

/-! ## Commands, slots and steps -/

theorem exec_withPending (i : Instr) :
    exec i (s.withPending l) = Result.withPending l (exec i s) := by
  cases i
  case shl128 | shr128 | getw128 | setw128 | getw256 | setw256 =>
    exact whenLegal_withPending l s _ (complete s _)
  case raise n => exact whenLegal_withPending l s _ (complete (s.raiseFlags _) _)
  case rndu32 | rndi32 | rndu64 | rndi64 => exact settleRounding_withPending l s _ _ _
  case propnan w => exact complete_raiseIf_withPending l s _ _ _
  case resetf => exact complete_withPending l s.clearFlags _
  case wrrm m => exact complete_withPending l { s with rm := m } _
  all_goals exact complete_withPending l s _

theorem issue_withPending : issue (s.withPending l) = Result.withPending l (issue s) := by
  have hcmd : (s.withPending l).cmd = s.cmd := rfl
  unfold issue
  rw [hcmd]
  cases decode s.cmd with
  | ok i => exact exec_withPending l s i
  | error c => exact reject_withPending l s

theorem runSlot_withPending (x : HostInput) :
    runSlot x (s.withPending l) = Result.withPending l (runSlot x s) := by
  unfold runSlot
  cases x.rst
  · cases x.request with
    | none => rfl
    | some q => exact issue_withPending l s
  · exact congrArg Host.Outcome.next (resetAction_withPending l s)

end

section
variable (s : State) (x : HostInput)

/-- Driving the oldest slot leaves the slots behind it pending and reads nothing of them. -/
theorem accept_withPending_cons (rest : List HostInput) :
    (s.withPending (x :: rest)).accept x rest =
      ((s.withPending [x]).accept x []).withPending rest := by
  unfold State.accept
  cases x.request <;> rfl

theorem step_withPending_cons (rest : List HostInput) :
    step (s.withPending (x :: rest)) = Result.withPending rest (step (s.withPending [x])) := by
  rw [step_cons (s := s.withPending (x :: rest)) rfl, step_cons (s := s.withPending [x]) rfl,
    accept_withPending_cons, runSlot_withPending]

/-- One state answers the oldest slot, whatever slots are behind it. -/
theorem step_oldest_slot :
    ∃ u : State, ∀ rest, step (s.withPending (x :: rest)) = .next (u.withPending rest) := by
  obtain ⟨u, hu, -⟩ := step_total (s.withPending [x])
  exact ⟨u, fun rest => (step_withPending_cons s x rest).trans (congrArg (Result.withPending rest) hu)⟩

end

/-- One state ends the run of the slots `xs`, whatever slots are behind them. -/
theorem run_leading_slots (xs : List HostInput) (s : State) :
    ∃ t : State, ∀ ys,
      Host.Core.run core xs.length (s.withPending (xs ++ ys)) = .next (t.withPending ys) := by
  induction xs generalizing s with
  | nil => exact ⟨s, fun ys => rfl⟩
  | cons x xs ih =>
    obtain ⟨u, hu⟩ := step_oldest_slot s x
    obtain ⟨t, ht⟩ := ih u
    exact ⟨t, fun ys => (run_succ (hu (xs ++ ys)) xs.length).trans (ht ys)⟩

/-- Settles O19: `run_leading_slots`, read with nothing behind `xs` and with `ys` behind it. -/
theorem laterCommandsAreInvisible : Obligations.LaterCommandsAreInvisible := by
  intro xs ys s
  obtain ⟨t, ht⟩ := run_leading_slots xs s
  have halone := ht []
  rw [List.append_nil] at halone
  exact ⟨t.withPending [], halone, ht ys⟩

end Sys2Proof.Machine
end

section
/-!
The decoder and the encoder (30_encoding). A word is its eight fields. The decoder answers a word exactly
when the word has the header of a row (`HeaderOf`) and the row's operands are legal, and a word with a row's
header is fixed by the fields the row uses.
-/

namespace Sys2Proof

open Sys2Proof.Laws

/-! ## A word is its fields (30_encoding R42) -/

theorem getLsbD_eq_of_extractLsb'_eq {n lo len i : Nat} {w v : BitVec n}
    (h : w.extractLsb' lo len = v.extractLsb' lo len) (hlo : lo ≤ i) (hhi : i < lo + len) :
    w.getLsbD i = v.getLsbD i := by
  have hbit := congrArg (·.getLsbD (i - lo)) h
  simpa [show i - lo < len by omega, Nat.add_sub_cancel' hlo] using hbit

theorem eq_iff_fields_eq {w v : Command} :
    w = v ↔ fieldOpc w = fieldOpc v ∧ fieldRm w = fieldRm v ∧ fieldEx w = fieldEx v ∧
      fieldSg w = fieldSg v ∧ fieldSel w = fieldSel v ∧ fieldWo w = fieldWo v ∧ fieldN w = fieldN v ∧
      fieldRsv w = fieldRsv v := by
  refine ⟨fun h => by simp [h], ?_⟩
  rintro ⟨hopc, hrm, hex, hsg, hsel, hwo, hn, hrsv⟩
  apply BitVec.eq_of_getLsbD_eq
  intro i hi
  obtain hhi | ⟨hlo, hhi⟩ | rfl | rfl | ⟨hlo, hhi⟩ | rfl | ⟨hlo, hhi⟩ | hlo :
      i < 8 ∨ (8 ≤ i ∧ i < 11) ∨ i = 11 ∨ i = 12 ∨ (13 ≤ i ∧ i < 16) ∨ i = 16 ∨ (17 ≤ i ∧ i < 25) ∨
      25 ≤ i := by omega
  · exact getLsbD_eq_of_extractLsb'_eq hopc i.zero_le hhi
  · exact getLsbD_eq_of_extractLsb'_eq hrm hlo hhi
  · exact hex
  · exact hsg
  · exact getLsbD_eq_of_extractLsb'_eq hsel hlo hhi
  · exact hwo
  · exact getLsbD_eq_of_extractLsb'_eq hn hlo hhi
  · exact getLsbD_eq_of_extractLsb'_eq hrsv hlo hi

/-- The fields of a word, packed, are the word, if RSV is zero. -/
theorem packWord_fields {w : Command} (h : fieldRsv w = 0#7) :
    packWord (fieldOpc w) (fieldRm w) (fieldEx w) (fieldSg w) (fieldSel w) (fieldWo w) (fieldN w) = w :=
  eq_iff_fields_eq.mpr (by simp [h])

/-! ## The header of a row fixes every field the row does not use (30_encoding R46, R47) -/

theorem FieldUse.unusedZero_iff {u : FieldUse} {w : Command} :
    u.unusedZero w = true ↔
      (u.rm = false → fieldRm w = 0#3) ∧ (u.exSg = false → fieldEx w = false ∧ fieldSg w = false) ∧
      (u.sel = false → fieldSel w = 0#3) ∧ (u.wo = false → fieldWo w = false) ∧
      (u.n = false → fieldN w = 0#8) := by
  simp only [FieldUse.unusedZero, Bool.and_eq_true, Bool.or_eq_true, beq_iff_eq, Bool.not_eq_true',
    ← Bool.not_eq_true, or_iff_not_imp_left, and_assoc]

theorem decode_eq_ok_iff {w : Command} {i : Instr} :
    decode w = .ok i ↔ ∃ o, HeaderOf o w ∧ o.operands w = .ok i := by
  constructor
  · intro h
    unfold decode at h
    split at h
    · cases h
    · next o ho =>
      split_ifs at h with hrsv huses
      exact ⟨o, ⟨(Opcode.code_of_ofCode ho).symm, not_not.mp hrsv, huses⟩, h⟩
  · rintro ⟨o, ⟨hopc, hrsv, huses⟩, h⟩
    simp [decode, hopc, hrsv, huses, h]

/-! ## Decoding an encoding (30_encoding R45) -/

theorem headerOf_encode (i : Instr) : HeaderOf (opcodeOf i) (encode i) := by
  cases i
  case shl128 | shr128 | getw128 | setw128 | shl256 | shr256 | getw256 | setw256 | shrx64 | shrx128
      | raise => exact headerOf_immediate _ _ rfl
  case tow128 | fromw128 | tow256 | fromw256 => exact headerOf_order _ _ rfl
  case rndu32 | rndi32 | rndu64 | rndi64 => exact headerOf_rounding _ _ _ _ rfl rfl
  case pconstu32 | pconsti32 | pconstu64 | pconsti64 | defnan | propnan => exact headerOf_select _ _ rfl
  case wrrm m => exact EncodedHeader.wrrm m
  all_goals exact headerOf_plain _

section
variable {w : Command} {i : Instr}

theorem withN_eq_ok_iff {o : Opcode} {f : BitVec 8 → Instr} :
    withN o w f = .ok i ↔ (fieldN w).toNat ≤ o.maxN ∧ f (fieldN w) = i := by
  unfold withN
  split_ifs with h <;> simp [h]

theorem withRounding_eq_ok_iff {f : RmField → Bool → Bool → Instr} :
    withRounding w f = .ok i ↔
      ∃ rm, RmField.ofCode (fieldRm w) = some rm ∧ f rm (fieldEx w) (fieldSg w) = i := by
  unfold withRounding
  cases RmField.ofCode (fieldRm w) <;> simp

theorem withMode_eq_ok_iff {f : RoundingMode → Instr} :
    withMode w f = .ok i ↔ ∃ m, RoundingMode.ofCode (fieldRm w) = some m ∧ f m = i := by
  unfold withMode
  cases RoundingMode.ofCode (fieldRm w) <;> simp

theorem withKind_eq_ok_iff {f : ConstKind → Instr} :
    withKind w f = .ok i ↔ ∃ k, ConstKind.ofCode (fieldSel w) = some k ∧ f k = i := by
  unfold withKind
  cases ConstKind.ofCode (fieldSel w) <;> simp

theorem withWidth_eq_ok_iff {f : NanWidth → Instr} :
    withWidth w f = .ok i ↔ ∃ v, NanWidth.ofCode (fieldSel w) = some v ∧ f v = i := by
  unfold withWidth
  cases NanWidth.ofCode (fieldSel w) <;> simp

end

theorem withN_encodeN {o : Opcode} {n : BitVec 8} {f : BitVec 8 → Instr} (h : n.toNat ≤ o.maxN) :
    withN o (encodeN o n) f = .ok (f n) :=
  withN_eq_ok_iff.mpr (by simp [encodeN, h])

/-- The row of a well-formed instruction reads it back from its word. -/
theorem operands_encode {i : Instr} (hi : i.wf = true) : (opcodeOf i).operands (encode i) = .ok i := by
  cases i
  case shl128 | shr128 | getw128 | setw128 | getw256 | setw256 | raise =>
    exact withN_encodeN (of_decide_eq_true hi)
  case shl256 n | shr256 n | shrx64 n | shrx128 n =>
    exact withN_encodeN (Nat.le_of_lt_succ n.isLt)
  case tow128 | fromw128 | tow256 | fromw256 => simp [opcodeOf, Opcode.operands, encode, encodeWo]
  case rndu32 | rndi32 | rndu64 | rndi64 =>
    exact withRounding_eq_ok_iff.mpr (by simp [encode, encodeRounding])
  case pconstu32 | pconsti32 | pconstu64 | pconsti64 =>
    exact withKind_eq_ok_iff.mpr (by simp [encode, encodeSel])
  case defnan | propnan => exact withWidth_eq_ok_iff.mpr (by simp [encode, encodeSel])
  case wrrm => exact withMode_eq_ok_iff.mpr (by simp [encode])
  all_goals rfl

theorem decode_encode {i : Instr} (hi : i.wf = true) : decode (encode i) = .ok i :=
  decode_eq_ok_iff.mpr ⟨opcodeOf i, headerOf_encode i, operands_encode hi⟩

/-! ## Encoding what was decoded -/

section
variable {o : Opcode} {w : Command} (h : HeaderOf o w)
include h

theorem unused_fields_of_header {u : FieldUse} (hu : o.uses = u) :
    (u.rm = false → fieldRm w = 0#3) ∧ (u.exSg = false → fieldEx w = false ∧ fieldSg w = false) ∧
    (u.sel = false → fieldSel w = 0#3) ∧ (u.wo = false → fieldWo w = false) ∧
    (u.n = false → fieldN w = 0#8) := by
  obtain ⟨-, -, huses⟩ := h
  exact FieldUse.unusedZero_iff.mp (hu ▸ huses)

/-- The packed word of a row's code and the fields of a word with the row's header is that word. -/
theorem packWord_of_header {rm sel : BitVec 3} {ex sg wo : Bool} {n : BitVec 8} (hrm : fieldRm w = rm)
    (hex : fieldEx w = ex) (hsg : fieldSg w = sg) (hsel : fieldSel w = sel) (hwo : fieldWo w = wo)
    (hn : fieldN w = n) : packWord o.code rm ex sg sel wo n = w := by
  obtain ⟨hopc, hrsv, -⟩ := h
  rw [← hopc, ← hrm, ← hex, ← hsg, ← hsel, ← hwo, ← hn, packWord_fields hrsv]

theorem encodePlain_of_header (hu : o.uses = .nothing) : encodePlain o = w := by
  obtain ⟨hrm, hx, hsel, hwo, hn⟩ := unused_fields_of_header h hu
  exact packWord_of_header h (hrm rfl) (hx rfl).1 (hx rfl).2 (hsel rfl) (hwo rfl) (hn rfl)

theorem encodeN_of_header (hu : o.uses = .immediate) : encodeN o (fieldN w) = w := by
  obtain ⟨hrm, hx, hsel, hwo, -⟩ := unused_fields_of_header h hu
  exact packWord_of_header h (hrm rfl) (hx rfl).1 (hx rfl).2 (hsel rfl) (hwo rfl) rfl

theorem encodeWo_of_header (hu : o.uses = .order) : encodeWo o (.ofBit (fieldWo w)) = w := by
  obtain ⟨hrm, hx, hsel, -, hn⟩ := unused_fields_of_header h hu
  exact packWord_of_header h (hrm rfl) (hx rfl).1 (hx rfl).2 (hsel rfl) (WordOrder.bit_ofBit _).symm (hn rfl)

theorem encodeSel_of_header (hu : o.uses = .select) {sel : BitVec 3} (hs : sel = fieldSel w) :
    encodeSel o sel = w := by
  obtain ⟨hrm, hx, -, hwo, hn⟩ := unused_fields_of_header h hu
  exact packWord_of_header h (hrm rfl) (hx rfl).1 (hx rfl).2 hs.symm (hwo rfl) (hn rfl)

theorem encodeRounding_of_header (hu : o.uses = .rounding) {rm : RmField} (hc : rm.code = fieldRm w) :
    encodeRounding o rm (fieldEx w) (fieldSg w) = w := by
  obtain ⟨-, -, hsel, hwo, hn⟩ := unused_fields_of_header h hu
  exact packWord_of_header h hc.symm rfl rfl (hsel rfl) (hwo rfl) (hn rfl)

theorem packWord_mode_of_header (hu : o.uses = .mode) {rm : BitVec 3} (hc : rm = fieldRm w) :
    packWord o.code rm false false 0#3 false 0#8 = w := by
  obtain ⟨-, hx, hsel, hwo, hn⟩ := unused_fields_of_header h hu
  exact packWord_of_header h hc.symm (hx rfl).1 (hx rfl).2 (hsel rfl) (hwo rfl) (hn rfl)

/-- What a row reads from a word with its header is well-formed and has that word. -/
theorem wf_and_encode_of_operands {i : Instr} (hi : o.operands w = .ok i) :
    i.wf = true ∧ encode i = w := by
  cases o
  case shl128 | shr128 | getw128 | setw128 | getw256 | setw256 | raise =>
    obtain ⟨hn, rfl⟩ := withN_eq_ok_iff.mp hi
    exact ⟨decide_eq_true hn, encodeN_of_header h rfl⟩
  case shl256 | shr256 | shrx64 | shrx128 =>
    obtain ⟨-, rfl⟩ := withN_eq_ok_iff.mp hi
    exact ⟨rfl, encodeN_of_header h rfl⟩
  case tow128 | fromw128 | tow256 | fromw256 =>
    cases hi
    exact ⟨rfl, encodeWo_of_header h rfl⟩
  case rndu32 | rndi32 | rndu64 | rndi64 =>
    obtain ⟨rm, hrm, rfl⟩ := withRounding_eq_ok_iff.mp hi
    exact ⟨rfl, encodeRounding_of_header h rfl (RmField.code_of_ofCode hrm)⟩
  case pconstu32 | pconsti32 | pconstu64 | pconsti64 =>
    obtain ⟨k, hk, rfl⟩ := withKind_eq_ok_iff.mp hi
    exact ⟨rfl, encodeSel_of_header h rfl (ConstKind.code_of_ofCode hk)⟩
  case defnan | propnan =>
    obtain ⟨v, hv, rfl⟩ := withWidth_eq_ok_iff.mp hi
    exact ⟨rfl, encodeSel_of_header h rfl (NanWidth.code_of_ofCode hv)⟩
  case wrrm =>
    obtain ⟨m, hm, rfl⟩ := withMode_eq_ok_iff.mp hi
    exact ⟨rfl, packWord_mode_of_header h rfl (RoundingMode.code_of_ofCode hm)⟩
  all_goals
    cases hi
    exact ⟨rfl, encodePlain_of_header h rfl⟩

end

theorem wf_and_encode_of_decode {w : Command} {i : Instr} (h : decode w = .ok i) :
    i.wf = true ∧ encode i = w := by
  obtain ⟨o, ho, hi⟩ := decode_eq_ok_iff.mp h
  exact wf_and_encode_of_operands ho hi

/-! ## The obligations -/

/-- Settles O1: the word of `i` has the header of the row of `i`, and that row reads `i` back. -/
theorem decodeInvertsEncode : Obligations.DecodeInvertsEncode :=
  fun _ hi => decode_encode hi

/-- Settles O2: a decoding word has the header of a row, so the fields the row reads fix the whole word. -/
theorem encodeInvertsDecode : Obligations.EncodeInvertsDecode :=
  fun _ _ h => wf_and_encode_of_decode h

/-- Settles O4: the six words are the encodings of their commands. -/
theorem workedEncodingsDecode : Obligations.WorkedEncodingsDecode :=
  ⟨decode_encode (i := .add128) rfl, decode_encode (i := .shl128 1#8) rfl,
    decode_encode (i := .rndu32 (.mode .nearestEven) true false) rfl,
    decode_encode (i := .rndi64 (.mode .towardNegative) false true) rfl,
    decode_encode (i := .propnan .f32) rfl, decode_encode (i := .raise 0x10#8) rfl⟩

end Sys2Proof
end

section
/-!
The opcode table (30_encoding R46). Each row of the table is computed from the row of the opcode map, its
mask from the fields the row uses, so that meeting a row is having its header with RM, SEL and N in range.
-/

namespace Sys2Proof

open Sys2Proof.Laws Sys2Proof.Safety

/-! ## The mask of a row -/

/-- OPC, RSV and every field the row does not use. -/
def FieldUse.mask (u : FieldUse) : Command :=
  0xFE000000#32 ||| packWord 0xFF#8 (bif u.rm then 0#3 else 7#3) (!u.exSg) (!u.exSg)
    (bif u.sel then 0#3 else 7#3) (!u.wo) (bif u.n then 0#8 else 0xFF#8)

theorem fields_mask (u : FieldUse) :
    fieldOpc u.mask = .allOnes 8 ∧ fieldRm u.mask = (bif u.rm then 0#3 else .allOnes 3) ∧
    fieldEx u.mask = !u.exSg ∧ fieldSg u.mask = !u.exSg ∧
    fieldSel u.mask = (bif u.sel then 0#3 else .allOnes 3) ∧ fieldWo u.mask = !u.wo ∧
    fieldN u.mask = (bif u.n then 0#8 else .allOnes 8) ∧ fieldRsv u.mask = .allOnes 7 := by
  obtain ⟨rm, exSg, sel, wo, n⟩ := u
  revert rm exSg sel wo n
  decide

theorem fields_and (w v : Command) :
    fieldOpc (w &&& v) = fieldOpc w &&& fieldOpc v ∧ fieldRm (w &&& v) = fieldRm w &&& fieldRm v ∧
    fieldEx (w &&& v) = (fieldEx w && fieldEx v) ∧ fieldSg (w &&& v) = (fieldSg w && fieldSg v) ∧
    fieldSel (w &&& v) = fieldSel w &&& fieldSel v ∧ fieldWo (w &&& v) = (fieldWo w && fieldWo v) ∧
    fieldN (w &&& v) = fieldN w &&& fieldN v ∧ fieldRsv (w &&& v) = fieldRsv w &&& fieldRsv v := by
  simp [fieldOpc, fieldRm, fieldEx, fieldSg, fieldSel, fieldWo, fieldN, fieldRsv, BitVec.extractLsb'_and]

theorem and_maskUnless_eq_zero {n : Nat} (used : Bool) (x : BitVec n) :
    (x &&& bif used then 0#n else .allOnes n) = 0#n ↔ (used = false → x = 0#n) := by
  cases used <;> simp

theorem and_not_used_eq_false (used x : Bool) : (x && !used) = false ↔ (used = false → x = false) := by
  cases used <;> simp

/-- A word has the header of a row exactly when its bits under the row's mask are the row's word. -/
theorem headerOf_iff_and_mask {o : Opcode} {w : Command} :
    HeaderOf o w ↔ w &&& o.uses.mask = encodePlain o := by
  simp only [HeaderOf, FieldUse.unusedZero_iff, eq_iff_fields_eq, fields_and, fields_mask, encodePlain,
    fieldOpc_packWord, fieldRm_packWord, fieldEx_packWord, fieldSg_packWord, fieldSel_packWord,
    fieldWo_packWord, fieldN_packWord, fieldRsv_packWord, BitVec.and_allOnes, and_maskUnless_eq_zero,
    and_not_used_eq_false]
  tauto

/-! ## The rows of the table -/

/-- The RM values of the row; only 0 where it does not use RM (30_encoding R48). -/
def Opcode.legalRm : Opcode → List Nat
  | .rndu32 | .rndi32 | .rndu64 | .rndi64 => [0, 1, 2, 3, 4, 6, 7]
  | .wrrm => [0, 1, 2, 3, 4, 6]
  | _ => [0]

/-- The largest SEL of the row; 0 where it does not use SEL (30_encoding R49). -/
def Opcode.maxSel : Opcode → Nat
  | .pconstu32 | .pconsti32 | .pconstu64 | .pconsti64 => 2
  | .defnan | .propnan => 4
  | _ => 0

def Opcode.row (o : Opcode) : TableRow where
  pattern := (encodePlain o).toNat
  mask := o.uses.mask.toNat
  legalRm := o.legalRm
  maxSel := o.maxSel
  maxN := o.maxN

theorem tableRows_eq_map_row : tableRows = Opcode.all.map Opcode.row := by rfl

theorem Opcode.mem_all (o : Opcode) : o ∈ Opcode.all := by
  cases o <;> decide

theorem legalWord_iff {w : Command} :
    LegalWord w.toNat ↔ ∃ o, HeaderOf o w ∧ (fieldRm w).toNat ∈ o.legalRm ∧
      (fieldSel w).toNat ≤ o.maxSel ∧ (fieldN w).toNat ≤ o.maxN := by
  have hfields : w.toNat / 2 ^ 8 % 8 = (fieldRm w).toNat ∧ w.toNat / 2 ^ 13 % 8 = (fieldSel w).toNat ∧
      w.toNat / 2 ^ 17 % 256 = (fieldN w).toNat := by
    simp [fieldRm, fieldSel, fieldN, Nat.shiftRight_eq_div_pow]
  obtain ⟨hrm, hsel, hn⟩ := hfields
  have hmask (o : Opcode) : w.toNat &&& o.row.mask = o.row.pattern ↔ HeaderOf o w := by
    rw [headerOf_iff_and_mask, ← BitVec.toNat_inj, BitVec.toNat_and]
    rfl
  simp only [LegalWord, tableRows_eq_map_row, List.mem_map, Opcode.mem_all, true_and, exists_exists_eq_and,
    hmask, hrm, hsel, hn]
  rfl

/-! ## The operands of a row are legal -/

theorem exists_rmField_iff (c : BitVec 3) :
    (∃ rm, RmField.ofCode c = some rm) ↔ c.toNat ∈ [0, 1, 2, 3, 4, 6, 7] := by
  rw [← Option.isSome_iff_exists]
  revert c; decide

theorem exists_roundingMode_iff (c : BitVec 3) :
    (∃ m, RoundingMode.ofCode c = some m) ↔ c.toNat ∈ [0, 1, 2, 3, 4, 6] := by
  rw [← Option.isSome_iff_exists]
  revert c; decide

theorem exists_constKind_iff (c : BitVec 3) : (∃ k, ConstKind.ofCode c = some k) ↔ c.toNat ≤ 2 := by
  rw [← Option.isSome_iff_exists]
  revert c; decide

theorem exists_nanWidth_iff (c : BitVec 3) : (∃ v, NanWidth.ofCode c = some v) ↔ c.toNat ≤ 4 := by
  rw [← Option.isSome_iff_exists]
  revert c; decide

theorem exists_operands_iff {o : Opcode} {w : Command} (h : HeaderOf o w) :
    (∃ i, o.operands w = .ok i) ↔ (fieldRm w).toNat ∈ o.legalRm ∧ (fieldSel w).toNat ≤ o.maxSel ∧
      (fieldN w).toNat ≤ o.maxN := by
  obtain ⟨hrm, -, hsel, -, hn⟩ := unused_fields_of_header h rfl
  cases o
  case shl128 | shr128 | getw128 | setw128 | shl256 | shr256 | getw256 | setw256 | shrx64 | shrx128
      | raise =>
    simp [Opcode.operands, withN_eq_ok_iff, hrm rfl, hsel rfl, Opcode.legalRm, Opcode.maxSel]
  case rndu32 | rndi32 | rndu64 | rndi64 =>
    simp [Opcode.operands, withRounding_eq_ok_iff, exists_rmField_iff, hsel rfl, hn rfl, Opcode.legalRm,
      Opcode.maxSel]
  case pconstu32 | pconsti32 | pconstu64 | pconsti64 =>
    simp [Opcode.operands, withKind_eq_ok_iff, exists_constKind_iff, hrm rfl, hn rfl, Opcode.legalRm,
      Opcode.maxSel]
  case defnan | propnan =>
    simp [Opcode.operands, withWidth_eq_ok_iff, exists_nanWidth_iff, hrm rfl, hn rfl, Opcode.legalRm,
      Opcode.maxSel]
  case wrrm =>
    simp [Opcode.operands, withMode_eq_ok_iff, exists_roundingMode_iff, hsel rfl, hn rfl, Opcode.legalRm,
      Opcode.maxSel]
  all_goals
    simp [Opcode.operands, hrm rfl, hsel rfl, hn rfl, Opcode.legalRm, Opcode.maxSel]

/-! ## The obligation -/

theorem exists_decode_iff_legalWord (w : Command) : (∃ i, decode w = .ok i) ↔ LegalWord w.toNat := by
  rw [legalWord_iff]
  constructor
  · rintro ⟨i, h⟩
    obtain ⟨o, ho, hi⟩ := decode_eq_ok_iff.mp h
    exact ⟨o, ho, (exists_operands_iff ho).mp ⟨i, hi⟩⟩
  · rintro ⟨o, ho, hlegal⟩
    obtain ⟨i, hi⟩ := (exists_operands_iff ho).mpr hlegal
    exact ⟨i, decode_eq_ok_iff.mpr ⟨o, ho, hi⟩⟩

/-- Settles O3: both sides say that the word has the header of a row and legal fields. -/
theorem decodedWordsAreTheTablesWords : Obligations.DecodedWordsAreTheTablesWords :=
  exists_decode_iff_legalWord

end Sys2Proof
end

section
/-!
Rejections and the overlay mark (60_exceptions R117; log 8, log 10). A term is rejected when it is not
well-formed and keeps the mark when it is, so a slot keeps the mark clear exactly when a word it issues meets
the opcode table.
-/

namespace Sys2Proof.Machine

open Sys2Proof.Safety

/-! ## A term with N out of range -/

theorem exec_of_not_wf {i : Instr} (hi : i.wf = false) (s : State) : exec i s = reject s := by
  cases i
  case shl128 | shr128 | getw128 | setw128 | getw256 | setw256 | raise =>
    exact whenLegal_of_not s _ (of_decide_eq_false hi)
  all_goals cases hi

/-! ## A well-formed term keeps the mark -/

/-- An answer of the outcome has the overlay mark of `s`. -/
def KeepsMark (s : State) (o : Result) : Prop := ∀ t, o = .next t → t.refusedMark = s.refusedMark

theorem complete_keepsMark {s s' : State} (h : s'.refusedMark = s.refusedMark) (r : Bus) :
    KeepsMark s (complete s' r) := by
  intro t ht
  rw [complete_next ht, ← h]

theorem settleRounding_keepsMark {w : Nat} (s : State) (ex : Bool) (sentinel : BitVec w) (q : Rounded w) :
    KeepsMark s (settleRounding s ex sentinel q) := by
  intro t ht
  obtain ⟨r, m, heq⟩ := settleRounding_effect s ex sentinel q
  cases heq.symm.trans ht
  rfl

theorem KeepsMark.whenLegal {s : State} {o : Result} (h : KeepsMark s o) {legal : Bool}
    (hl : legal = true) : KeepsMark s (whenLegal legal s o) := by
  rwa [hl, whenLegal_true]

theorem exec_keepsMark {i : Instr} (hi : i.wf = true) (s : State) : KeepsMark s (exec i s) := by
  cases i
  case shl128 | shr128 | getw128 | setw128 | getw256 | setw256 | raise =>
    exact (complete_keepsMark (by rfl) _).whenLegal hi
  case rndu32 | rndi32 | rndu64 | rndi64 => exact settleRounding_keepsMark s _ _ _
  case propnan => exact complete_keepsMark (State.raiseIf_refusedMark ..) _
  all_goals exact complete_keepsMark (by rfl) _

/-! ## Slots and runs -/

/-- A command word the slot issues outside reset meets the opcode table. -/
def SlotLegal (x : HostInput) : Prop :=
  ∀ q : Request, x.rst = false → x.request = some q → LegalWord q.cmd.toNat

theorem issue_safe_iff {s t : State} (h : issue s = .next t) : Safe t ↔ Safe s ∧ LegalWord s.cmd.toNat := by
  rw [← exists_decode_iff_legalWord]
  unfold issue at h
  cases hd : decode s.cmd with
  | ok i =>
    obtain ⟨hwf, -⟩ := wf_and_encode_of_decode hd
    rw [hd] at h
    simp [Safe, exec_keepsMark hwf s t h]
  | error c =>
    rw [hd] at h
    simp [Safe, reject_next h]

theorem step_safe_iff {s t : State} {x : HostInput} {rest : List HostInput} (hp : s.pending = x :: rest)
    (h : step s = .next t) : Safe t ↔ Safe s ∧ SlotLegal x := by
  cases hr : x.rst with
  | true =>
    rw [step_of_rst hp hr] at h
    cases h
    simp [Safe, SlotLegal, hr]
  | false =>
    cases hq : x.request with
    | none =>
      rw [step_of_no_request hp hr hq] at h
      cases h
      simp [Safe, SlotLegal, hq]
    | some q =>
      rw [step_of_request hp hr hq] at h
      simp [issue_safe_iff h, Safe, SlotLegal, hr, hq]

theorem safeRun_iff (l : List HostInput) (s : State) (hp : s.pending = l) :
    SafeRun l.length s ↔ Safe s ∧ ∀ x ∈ l, SlotLegal x := by
  induction l generalizing s with
  | nil =>
    refine ⟨?_, fun ⟨hs, _⟩ => ⟨s, rfl, hs⟩⟩
    rintro ⟨t, ht, hsafe⟩
    cases ht
    exact ⟨hsafe, by simp⟩
  | cons x rest ih =>
    obtain ⟨u, hu, hrest⟩ := step_total s
    rw [hp, List.tail_cons] at hrest
    have hrun : SafeRun (x :: rest).length s ↔ SafeRun rest.length u := by
      simp only [SafeRun, List.length_cons, run_succ hu]
    rw [hrun, ih u hrest, step_safe_iff hp hu, List.forall_mem_cons, and_assoc]

/-! ## The obligations -/

/-- Settles O7: the seven commands with a bounded immediate check it and reject. -/
theorem illFormedTermIsRejected : Obligations.IllFormedTermIsRejected :=
  fun _ s hi => exec_of_not_wf hi s

/-- Settles O21: `safeRun_iff` on everything pending. -/
theorem runIsSafeExactlyWhenWordsAreLegal : Obligations.RunIsSafeExactlyWhenWordsAreLegal := by
  intro s hs
  rw [safeRun_iff s.pending s rfl]
  exact and_iff_right hs

end Sys2Proof.Machine
end

section
/-!
The operand buses (30_encoding R43). A command reads a bus through the low bits R43 names, and replacing a
bus by another with the same low bits commutes with every meaning.
-/

namespace Sys2Proof.Machine

open Sys2Proof.Safety

/-- The same state with other values on the operand buses. -/
def State.withBuses (a b : Bus) (s : State) : State := { s with a := a, b := b }

/-- The same outcome, with other values on the operand buses if it is an answer. -/
def Result.withBuses (a b : Bus) : Result → Result
  | .next t => .next (t.withBuses a b)
  | .fault f => .fault f
  | .refused q => .refused q

/-! ## Low bits of a bus -/

theorem lowBits_eq {x y : Bus} {n : Nat} (h : x.toNat % 2 ^ n = y.toNat % 2 ^ n) :
    x.extractLsb' 0 n = y.extractLsb' 0 n := by
  apply BitVec.eq_of_toNat_eq
  simpa [BitVec.extractLsb'_toNat] using h

theorem bus_eq {x y : Bus} (h : x.toNat % 2 ^ 256 = y.toNat % 2 ^ 256) : x = y := by
  simpa using lowBits_eq h

theorem nanOperand_eq_of_bitsOfA {w : NanWidth} {x y : Bus}
    (h : x.toNat % 2 ^ bitsOfA (.propnan w) = y.toNat % 2 ^ bitsOfA (.propnan w)) :
    nanOperand w x = nanOperand w y := by
  apply BitVec.eq_of_toNat_eq
  rw [nanOperand_toNat, nanOperand_toNat]
  cases w <;> exact h

theorem bitsOfB_propnan (w : NanWidth) : bitsOfB (.propnan w) = bitsOfA (.propnan w) := by
  cases w <;> rfl

/-! ## The shared operations do not read the buses -/

section
variable (a' b' : Bus) (s : State)

theorem complete_withBuses {r r' : Bus} (hr : r' = r) :
    complete (s.withBuses a' b') r' = Result.withBuses a' b' (complete s r) := by
  rw [hr]
  rfl

theorem reject_withBuses : reject (s.withBuses a' b') = Result.withBuses a' b' (reject s) := rfl

theorem raiseIf_withBuses (c : Bool) (m : FlagSet) :
    (s.withBuses a' b').raiseIf c m = (s.raiseIf c m).withBuses a' b' := by
  cases c <;> rfl

theorem whenLegal_withBuses (c : Bool) {o o' : Result} (h : o' = Result.withBuses a' b' o) :
    whenLegal c (s.withBuses a' b') o' = Result.withBuses a' b' (whenLegal c s o) := by
  cases c
  · exact reject_withBuses a' b' s
  · exact h

theorem settleRounding_withBuses {w : Nat} (ex : Bool) (sentinel : BitVec w) {q q' : Rounded w}
    (hq : q' = q) : settleRounding (s.withBuses a' b') ex sentinel q' =
      Result.withBuses a' b' (settleRounding s ex sentinel q) := by
  subst hq
  cases q' with
  | invalid => rfl
  | value z inexact =>
    simp only [settleRounding, raiseIf_withBuses]
    rfl

end

/-! ## Every meaning -/

section
variable {a' b' : Bus} {s : State}

theorem a64_withBuses (h : a'.toNat % 2 ^ 64 = s.a.toNat % 2 ^ 64) : (s.withBuses a' b').a64 = s.a64 :=
  lowBits_eq h

theorem b64_withBuses (h : b'.toNat % 2 ^ 64 = s.b.toNat % 2 ^ 64) : (s.withBuses a' b').b64 = s.b64 :=
  lowBits_eq h

theorem a128_withBuses (h : a'.toNat % 2 ^ 128 = s.a.toNat % 2 ^ 128) : (s.withBuses a' b').a128 = s.a128 :=
  lowBits_eq h

theorem b128_withBuses (h : b'.toNat % 2 ^ 128 = s.b.toNat % 2 ^ 128) : (s.withBuses a' b').b128 = s.b128 :=
  lowBits_eq h

theorem a_withBuses (h : a'.toNat % 2 ^ 256 = s.a.toNat % 2 ^ 256) : (s.withBuses a' b').a = s.a :=
  bus_eq h

theorem b_withBuses (h : b'.toNat % 2 ^ 256 = s.b.toNat % 2 ^ 256) : (s.withBuses a' b').b = s.b :=
  bus_eq h

theorem exec_withBuses (i : Instr) (ha : a'.toNat % 2 ^ bitsOfA i = s.a.toNat % 2 ^ bitsOfA i)
    (hb : b'.toNat % 2 ^ bitsOfB i = s.b.toNat % 2 ^ bitsOfB i) :
    exec i (s.withBuses a' b') = Result.withBuses a' b' (exec i s) := by
  cases i
  case cmpu128 | add128 | sub128 | mulw128 =>
    refine complete_withBuses a' b' s ?_
    rw [a128_withBuses ha, b128_withBuses hb]
  case neg128 | tow128 | fromw128 =>
    refine complete_withBuses a' b' s ?_
    rw [a128_withBuses ha]
  case shl128 | shr128 | getw128 =>
    refine whenLegal_withBuses a' b' s _ (complete_withBuses a' b' s ?_)
    rw [a128_withBuses ha]
  case setw128 =>
    refine whenLegal_withBuses a' b' s _ (complete_withBuses a' b' s ?_)
    rw [a128_withBuses ha, b64_withBuses hb]
  case cmpu256 | add256 | sub256 =>
    refine complete_withBuses a' b' s ?_
    rw [a_withBuses ha, b_withBuses hb]
  case neg256 | shl256 | shr256 | tow256 | fromw256 =>
    refine complete_withBuses a' b' s ?_
    rw [a_withBuses ha]
  case getw256 =>
    refine whenLegal_withBuses a' b' s _ (complete_withBuses a' b' s ?_)
    rw [a_withBuses ha]
  case setw256 =>
    refine whenLegal_withBuses a' b' s _ (complete_withBuses a' b' s ?_)
    rw [a_withBuses ha, b64_withBuses hb]
  case shrx64 =>
    refine complete_withBuses a' b' s ?_
    rw [a64_withBuses ha, b64_withBuses hb]
  case shrx128 =>
    refine complete_withBuses a' b' s ?_
    rw [a128_withBuses ha, b64_withBuses hb]
  case rndu32 | rndi32 =>
    refine settleRounding_withBuses a' b' s _ _ ?_
    rw [a64_withBuses ha]
    rfl
  case rndu64 | rndi64 =>
    refine settleRounding_withBuses a' b' s _ _ ?_
    rw [a64_withBuses ha, b64_withBuses hb]
    rfl
  case propnan w =>
    have hx : nanOperand w (s.withBuses a' b').a = nanOperand w s.a := nanOperand_eq_of_bitsOfA ha
    have hy : nanOperand w (s.withBuses a' b').b = nanOperand w s.b :=
      nanOperand_eq_of_bitsOfA (bitsOfB_propnan w ▸ hb)
    simp only [exec, execPropnan, hx, hy, raiseIf_withBuses]
    exact complete_withBuses a' b' (s.raiseIf _ _) rfl
  case raise => exact whenLegal_withBuses a' b' s _ (complete_withBuses a' b' (s.raiseFlags _) rfl)
  case resetf => exact complete_withBuses a' b' s.clearFlags rfl
  case wrrm m => exact complete_withBuses a' b' { s with rm := m } rfl
  all_goals exact complete_withBuses a' b' s rfl

end

/-- Settles O22: every command answers (`exec_effect`), and its answer moves with the buses
(`exec_withBuses`). -/
theorem unreadBusBitsAreIgnored : Obligations.UnreadBusBitsAreIgnored := by
  intro i s a' b' ha hb
  obtain ⟨r, st, f, m, k, h⟩ := exec_effect i s
  exact ⟨_, h, (exec_withBuses i ha hb).trans (congrArg (Result.withBuses a' b') h)⟩

end Sys2Proof.Machine
end

section
/-!
Command words as numbers (30_encoding R42, R45): a packed word is the sum of its shifted fields, and the word
of an instruction with N out of range decodes to nothing (R50).
-/

namespace Sys2Proof

open Sys2Proof.Laws Sys2Proof.Safety

/-- A field above all the bits already packed adds its shifted value. -/
theorem or_field_toNat {w : Command} {v m : Nat} (k : Nat) (x : BitVec m) (hk : k + m ≤ 32)
    (h : w.toNat = v ∧ v < 2 ^ k) :
    (w ||| x.setWidth 32 <<< k).toNat = v + 2 ^ k * x.toNat ∧ v + 2 ^ k * x.toNat < 2 ^ (k + m) := by
  obtain ⟨hw, hv⟩ := h
  have hlt : v + 2 ^ k * x.toNat < 2 ^ (k + m) := calc
    v + 2 ^ k * x.toNat < 2 ^ k * (x.toNat + 1) := by rw [Nat.mul_succ]; omega
    _ ≤ 2 ^ k * 2 ^ m := Nat.mul_le_mul_left _ x.isLt
    _ = 2 ^ (k + m) := (Nat.pow_add ..).symm
  have h32 : 2 ^ (k + m) ≤ 2 ^ 32 := Nat.pow_le_pow_right (by decide) hk
  have hshift : (x.setWidth 32 <<< k).toNat = 2 ^ k * x.toNat := by
    rw [BitVec.toNat_shiftLeft, BitVec.toNat_setWidth_of_le (by omega), Nat.shiftLeft_eq, Nat.mul_comm]
    exact Nat.mod_eq_of_lt (by omega)
  refine ⟨?_, hlt⟩
  rw [BitVec.toNat_or, hshift, hw, Nat.or_comm, ← Nat.two_pow_add_eq_or_of_lt hv, Nat.add_comm]

theorem packWord_toNat (opc : BitVec 8) (rm : BitVec 3) (ex sg : Bool) (sel : BitVec 3) (wo : Bool)
    (n : BitVec 8) : (packWord opc rm ex sg sel wo n).toNat =
      opc.toNat + 2 ^ 8 * rm.toNat + 2 ^ 11 * ex.toNat + 2 ^ 12 * sg.toNat + 2 ^ 13 * sel.toNat +
        2 ^ 16 * wo.toNat + 2 ^ 17 * n.toNat := by
  have hopc : (opc.setWidth 32).toNat = opc.toNat := BitVec.toNat_setWidth_of_le (by decide)
  have hrm := or_field_toNat 8 rm (by decide) ⟨hopc, opc.isLt⟩
  have hex := or_field_toNat 11 (.ofBool ex) (by decide) hrm
  have hsg := or_field_toNat 12 (.ofBool sg) (by decide) hex
  have hsel := or_field_toNat 13 sel (by decide) hsg
  have hwo := or_field_toNat 16 (.ofBool wo) (by decide) hsel
  have hn := or_field_toNat 17 n (by decide) hwo
  simpa [packWord] using hn.1

theorem encodeN_toNat (o : Opcode) (n : BitVec 8) : (encodeN o n).toNat = o.code.toNat + 2 ^ 17 * n.toNat := by
  simp [encodeN, packWord_toNat]

theorem encodeWo_toNat (o : Opcode) (wo : WordOrder) :
    (encodeWo o wo).toNat = o.code.toNat + 2 ^ 16 * orderNumber wo := by
  cases wo <;> simp [encodeWo, packWord_toNat, WordOrder.bit, orderNumber]

/-- A word with the header of a row that decodes has an N in that row's range. -/
theorem fieldN_le_maxN_of_decode {o : Opcode} {w : Command} {i : Instr} (ho : HeaderOf o w)
    (h : decode w = .ok i) : (fieldN w).toNat ≤ o.maxN := by
  obtain ⟨o', ho', hi⟩ := decode_eq_ok_iff.mp h
  obtain rfl : o' = o := by
    obtain ⟨hopc, -⟩ := ho
    obtain ⟨hopc', -⟩ := ho'
    simpa using congrArg Opcode.ofCode (hopc'.symm.trans hopc)
  obtain ⟨-, -, hn⟩ := (exists_operands_iff ho').mp ⟨i, hi⟩
  exact hn

theorem undecodable_of_maxN_lt {o : Opcode} {n : BitVec 8} (hu : o.uses.n = true) (hn : o.maxN < n.toNat) :
    Undecodable (o.code.toNat + 2 ^ 17 * n.toNat) := by
  rw [← encodeN_toNat, Undecodable, BitVec.ofNat_toNat, BitVec.setWidth_eq]
  cases h : decode (encodeN o n) with
  | error c => exact ⟨c, rfl⟩
  | ok i =>
    have hle := fieldN_le_maxN_of_decode (headerOf_immediate o n hu) h
    rw [encodeN, fieldN_packWord] at hle
    omega

end Sys2Proof
end

section
/-!
Words of a wide value (10_state R25, R26). A value is fixed by its words, and the order of two values by the
order of their words; then the shared operations of the wide-integer commands in these terms.
-/

namespace Sys2Proof.Machine

open Sys2Proof.Safety

/-! ## Numbers and their words -/

theorem wordOf_lt (x k : Nat) : wordOf x k < 2 ^ 64 := Nat.mod_lt _ (by decide)

theorem wordOf_toNat {n : Nat} (x : BitVec n) (k : Nat) : wordOf x.toNat k = (word x k).toNat :=
  (word_toNat x k).symm

theorem a128_toNat_eq_u128 (s : State) : s.a128.toNat = u128 s.a := a128_toNat s

theorem b128_toNat_eq_u128 (s : State) : s.b128.toNat = u128 s.b := b128_toNat s

theorem u128_eq_words (x : Bus) : u128 x = wordOf (u128 x) 1 * 2 ^ 64 + wordOf (u128 x) 0 := by
  have hx : u128 x < 2 ^ 128 := Nat.mod_lt _ (by decide)
  simp only [wordOf]
  omega

theorem order_of_lt {x y : Nat} (h : x < y) : order x y = -1 := if_pos h

theorem order_of_gt {x y : Nat} (h : y < x) : order x y = 1 := by
  rw [order, if_neg h.asymm, if_pos h]

theorem order_of_ne {x y : Nat} (h : x ≠ y) : order x y = if x < y then -1 else 1 := by
  split_ifs with hlt
  · exact order_of_lt hlt
  · exact order_of_gt (by omega)

@[simp] theorem order_self (x : Nat) : order x x = 0 := by simp [order]

/-- The parts above the low word decide; where they agree, the low words do. -/
theorem order_words {x y x0 y0 : Nat} (hx : x0 < 2 ^ 64) (hy : y0 < 2 ^ 64) :
    order (x * 2 ^ 64 + x0) (y * 2 ^ 64 + y0) = if x ≠ y then order x y else order x0 y0 := by
  obtain hlt | rfl | hgt := Nat.lt_trichotomy x y
  · rw [if_pos hlt.ne, order_of_lt hlt, order_of_lt (by omega)]
  · simp [order]
  · rw [if_pos hgt.ne', order_of_gt hgt, order_of_gt (by omega)]

theorem compareUnsigned_toNat {n : Nat} (x y : BitVec n) :
    (compareUnsigned x y).toNat = compareCode (order x.toNat y.toNat) := by
  obtain hlt | heq | hgt := Nat.lt_trichotomy x.toNat y.toNat
  · rw [compareUnsigned_lt hlt, order_of_lt hlt]
    rfl
  · rw [compareUnsigned_eq heq, heq, order_self]
    rfl
  · rw [compareUnsigned_gt hgt, order_of_gt hgt]
    rfl

/-! ## Words of a bus value -/

theorem eq_of_word_eq {n : Nat} {x y : BitVec n} (hn : 64 ∣ n)
    (h : ∀ k, 64 * k + 64 ≤ n → word x k = word y k) : x = y := by
  obtain ⟨c, rfl⟩ := hn
  apply BitVec.eq_of_getLsbD_eq
  intro j hj
  have hbit := congrArg (·.getLsbD (j % 64)) (h (j / 64) (by omega))
  simpa [word, Nat.mod_lt, Nat.div_add_mod] using hbit

theorem word_append_zero {n : Nat} (x : BitVec n) (w : Word64) : word (x ++ w) 0 = w := by
  apply BitVec.eq_of_getLsbD_eq
  intro j hj
  simp [word, BitVec.getLsbD_append, hj]

theorem word_append_succ {n : Nat} (x : BitVec n) (w : Word64) (k : Nat) :
    word (x ++ w) (k + 1) = word x k := by
  apply BitVec.eq_of_getLsbD_eq
  intro j hj
  have hge : ¬64 * (k + 1) + j < 64 := by omega
  have hsub : 64 * (k + 1) + j - 64 = 64 * k + j := by omega
  simp [word, BitVec.getLsbD_append, hj, hge, hsub]

@[simp] theorem word_zero_of_word64 (w : Word64) : word w 0 = w := by simp [word]

theorem words_of_pair (w1 w0 : Word64) :
    word (n := 128) (w1 ++ w0) 0 = w0 ∧ word (n := 128) (w1 ++ w0) 1 = w1 :=
  ⟨word_append_zero .., (word_append_succ ..).trans (word_zero_of_word64 w1)⟩

theorem words_of_quadruple (w3 w2 w1 w0 : Word64) :
    word (n := 256) (w3 ++ w2 ++ w1 ++ w0) 0 = w0 ∧ word (n := 256) (w3 ++ w2 ++ w1 ++ w0) 1 = w1 ∧
      word (n := 256) (w3 ++ w2 ++ w1 ++ w0) 2 = w2 ∧ word (n := 256) (w3 ++ w2 ++ w1 ++ w0) 3 = w3 :=
  have upper (k : Nat) : word (n := 256) (w3 ++ w2 ++ w1 ++ w0) (k + 2) = word (n := 128) (w3 ++ w2) k :=
    (word_append_succ ..).trans (word_append_succ ..)
  ⟨word_append_zero .., (word_append_succ ..).trans (word_append_zero ..),
    (upper 0).trans (words_of_pair w3 w2).1, (upper 1).trans (words_of_pair w3 w2).2⟩

theorem word_orderWords128 (wo : WordOrder) (x : Wide128) {k : Nat} (hk : k < 2) :
    word (orderWords128 wo x) k = word x (if wo = .littleEndianOfWords then k else 1 - k) := by
  cases wo <;> interval_cases k <;> simp [orderWords128, words_of_pair]

theorem word_orderWords256 (wo : WordOrder) (x : Bus) {k : Nat} (hk : k < 4) :
    word (orderWords256 wo x) k = word x (if wo = .littleEndianOfWords then k else 3 - k) := by
  cases wo <;> interval_cases k <;> simp [orderWords256, words_of_quadruple]

@[simp] theorem orderWords128_orderWords128 (wo : WordOrder) (x : Wide128) :
    orderWords128 wo (orderWords128 wo x) = x := by
  refine eq_of_word_eq (by decide) fun k hk => ?_
  have hk2 : k < 2 := by omega
  cases wo
  · simp [word_orderWords128, hk2]
  · simp [word_orderWords128, hk2, show 1 - k < 2 by omega, show 1 - (1 - k) = k by omega]

@[simp] theorem orderWords256_orderWords256 (wo : WordOrder) (x : Bus) :
    orderWords256 wo (orderWords256 wo x) = x := by
  refine eq_of_word_eq (by decide) fun k hk => ?_
  have hk4 : k < 4 := by omega
  cases wo
  · simp [word_orderWords256, hk4]
  · simp [word_orderWords256, hk4, show 3 - k < 4 by omega, show 3 - (3 - k) = k by omega]

/-! ## Results on R -/

theorem complete_of_toNat {s : State} {r : Bus} {m : Nat} (h : r.toNat = m) :
    complete s r = .next { s with status := .ok, r := BitVec.ofNat 256 m } := by
  subst h
  simp [complete]

theorem complete_zext_of_toNat {n m : Nat} {s : State} {x : BitVec n} (hn : n ≤ 256) (h : x.toNat = m) :
    complete s (zext x) = .next { s with status := .ok, r := BitVec.ofNat 256 m } :=
  complete_of_toNat ((zext_toNat x hn).trans h)

@[simp] theorem lowBits_zext (x : Wide128) : (zext x).extractLsb' 0 128 = x := by
  apply BitVec.eq_of_toNat_eq
  rw [BitVec.extractLsb'_toNat, zext_toNat x (by decide), Nat.shiftRight_zero]
  exact Nat.mod_eq_of_lt x.isLt

/-- What a command that answers A[127:0] puts on R. -/
theorem zext_toNat_of_eq_a128 {s : State} {x : Wide128} (h : x = s.a128) : (zext x).toNat = u128 s.a := by
  rw [h, zext_toNat _ (by decide), a128_toNat_eq_u128]

theorem wordOf_zext_toNat (x : Wide128) (k : Nat) : wordOf (zext x).toNat k = (word x k).toNat := by
  rw [zext_toNat x (by decide), wordOf_toNat]

end Sys2Proof.Machine
end

section
/-!
The obligations about the WideInt128 commands and the pairs of commands both widths have (40_wideint128,
41_wideint256).
-/

namespace Sys2Proof.Machine

open Sys2Proof.Safety

/-! ## Arithmetic -/

/-- Settles O23: the unsigned order of two values of two words is that of the high words where they differ
(`order_words`). -/
theorem compareHighWordFirst128 : Obligations.CompareHighWordFirst128 := by
  intro s
  have hexec : exec .cmpu128 s =
      .next { s with status := .ok, r := BitVec.ofNat 256 (compareCode (order (u128 s.a) (u128 s.b))) } := by
    refine complete_zext_of_toNat (by decide) ?_
    rw [compareUnsigned_toNat, a128_toNat_eq_u128, b128_toNat_eq_u128]
  have horder : order (u128 s.a) (u128 s.b) =
      if wordOf (u128 s.a) 1 ≠ wordOf (u128 s.b) 1 then
        (if wordOf (u128 s.a) 1 < wordOf (u128 s.b) 1 then -1 else 1)
      else if wordOf (u128 s.a) 0 ≠ wordOf (u128 s.b) 0 then
        (if wordOf (u128 s.a) 0 < wordOf (u128 s.b) 0 then -1 else 1)
      else 0 := by
    conv_lhs => rw [u128_eq_words s.a, u128_eq_words s.b, order_words (wordOf_lt ..) (wordOf_lt ..)]
    by_cases h1 : wordOf (u128 s.a) 1 = wordOf (u128 s.b) 1
    · by_cases h0 : wordOf (u128 s.a) 0 = wordOf (u128 s.b) 0
      · simp [h1, h0, order_self]
      · simp [h1, h0, order_of_ne]
    · simp [h1, order_of_ne]
  exact ⟨rfl, horder ▸ hexec, hexec⟩

/-- Settles O25: the sum of two values of two words is `s0 + 2^64 * s1` up to multiples of 2^128. -/
theorem addRipplesCarry128 : Obligations.AddRipplesCarry128 := by
  intro s
  have ha := u128_eq_words s.a
  have hb := u128_eq_words s.b
  refine ⟨rfl, _, _, rfl, rfl, ?hsum, complete_zext_of_toNat (by decide) ?hr⟩
  case hsum => omega
  case hr =>
    rw [BitVec.toNat_add, a128_toNat_eq_u128, b128_toNat_eq_u128]
    omega

/-- Settles O27: the two word differences put together are the difference modulo 2^128, with and without a
borrow. -/
theorem subRipplesBorrow128 : Obligations.SubRipplesBorrow128 := by
  intro s
  have ha := u128_eq_words s.a
  have hb := u128_eq_words s.b
  have ha0 := wordOf_lt (u128 s.a) 0
  have hb0 := wordOf_lt (u128 s.b) 0
  have hb1 := wordOf_lt (u128 s.b) 1
  have hdiff : ∀ br, br = (if wordOf (u128 s.a) 0 < wordOf (u128 s.b) 0 then 1 else 0) →
      (2 * 2 ^ 64 + wordOf (u128 s.a) 1 - wordOf (u128 s.b) 1 - br) % 2 ^ 64 * 2 ^ 64 +
        (2 ^ 64 + wordOf (u128 s.a) 0 - wordOf (u128 s.b) 0) % 2 ^ 64 =
      (2 ^ 128 + u128 s.a - u128 s.b) % 2 ^ 128 := by
    intro br hbr
    split_ifs at hbr <;> omega
  refine ⟨rfl, _, _, _, rfl, rfl, rfl, hdiff _ rfl, complete_zext_of_toNat (by decide) ?_⟩
  rw [BitVec.toNat_sub, a128_toNat_eq_u128, b128_toNat_eq_u128, hdiff _ rfl]
  omega

/-- Settles O29: NEG is subtraction from zero in the word arithmetic, and the words of 2^128 - a are read off
those of a. -/
theorem negateIsSubtractionFromZero : Obligations.NegateIsSubtractionFromZero := by
  intro s
  have hR : (zext (-s.a128)).toNat = (2 ^ 128 - u128 s.a) % 2 ^ 128 := by
    rw [zext_toNat _ (by decide), BitVec.toNat_neg, a128_toNat_eq_u128]
  have ha := u128_eq_words s.a
  have ha0 := wordOf_lt (u128 s.a) 0
  have ha1 := wordOf_lt (u128 s.a) 1
  refine ⟨rfl, rfl, ⟨zext (-s.a128), rfl, hR, ?_, ?_⟩, -s.a, rfl, BitVec.toNat_neg s.a, ?_⟩
  · rw [hR, wordOf]
    split_ifs <;> omega
  · exact congrArg (complete { s with a := 0#256, b := s.a } <| zext ·) (BitVec.zero_sub s.a128)
  · exact congrArg (complete { s with a := 0#256, b := s.a }) (BitVec.zero_sub s.a)

/-- Settles O30: the sum comes back on A unchanged (`lowBits_zext`), and addition cancels modulo 2^W. -/
theorem subtractUndoesAdd : Obligations.SubtractUndoesAdd := by
  intro s
  refine ⟨⟨_, _, rfl, rfl, ?_⟩, _, _, rfl, rfl, BitVec.add_sub_cancel s.a s.b⟩
  have hsum : (zext (s.a128 + s.b128)).extractLsb' 0 128 - s.b128 = s.a128 := by
    rw [lowBits_zext, BitVec.add_sub_cancel]
  exact zext_toNat_of_eq_a128 hsum

/-- Settles O33: the product stays below 2^256, so R holds it exactly; the four word products are its
expansion. -/
theorem wideningMultiplyIsExact : Obligations.WideningMultiplyIsExact := by
  intro s
  have hR : (zext s.a128 * zext s.b128).toNat = u128 s.a * u128 s.b := by
    have hlt : s.a128.toNat * s.b128.toNat < 2 ^ 128 * 2 ^ 128 := Nat.mul_lt_mul'' s.a128.isLt s.b128.isLt
    rw [← a128_toNat_eq_u128, ← b128_toNat_eq_u128, BitVec.toNat_mul,
      zext_toNat _ (by decide), zext_toNat _ (by decide)]
    exact Nat.mod_eq_of_lt hlt
  refine ⟨rfl, _, rfl, hR, hR.trans ?_⟩
  conv_lhs => rw [u128_eq_words s.a, u128_eq_words s.b]
  ring

/-! ## Words -/

/-- Settles O34: R is the zero-extended word, and an index out of range does not decode
(`undecodable_of_maxN_lt`). -/
theorem getWordReadsTheIndexedWord : Obligations.GetWordReadsTheIndexedWord := by
  intro n s
  refine ⟨encodeN_toNat .getw128 n, encodeN_toNat .getw256 n, undecodable_of_maxN_lt (o := .getw128) rfl,
    undecodable_of_maxN_lt (o := .getw256) rfl,
    fun h => (whenLegal_of s _ h).trans (complete_zext_of_toNat (by decide) ?_),
    fun h => (whenLegal_of s _ h).trans (complete_zext_of_toNat (by decide) ?_)⟩
  · rw [← wordOf_toNat, a128_toNat_eq_u128]
  · exact (wordOf_toNat s.a n.toNat).symm

/-- Settles O35, by what `replaceWord` leaves in each word (`word_replaceWord`). -/
theorem setWordReplacesOnlyTheIndexedWord : Obligations.SetWordReplacesOnlyTheIndexedWord := by
  intro n s
  refine ⟨encodeN_toNat .setw128 n, encodeN_toNat .setw256 n, undecodable_of_maxN_lt (o := .setw128) rfl,
    undecodable_of_maxN_lt (o := .setw256) rfl, fun h => ⟨_, whenLegal_of s _ h, ?_, fun k hk => ?_⟩,
    fun h => ⟨_, whenLegal_of s _ h, fun k hk => ?_⟩⟩
  · rw [zext_toNat _ (by decide)]
    exact BitVec.isLt _
  · rw [wordOf_zext_toNat, word_replaceWord _ _ _ _ (by omega), apply_ite BitVec.toNat, ← wordOf_toNat,
      a128_toNat_eq_u128, b64_toNat]
    rfl
  · rw [wordOf_toNat, word_replaceWord _ _ _ _ (by omega), apply_ite BitVec.toNat, ← wordOf_toNat, b64_toNat]
    rfl

/-- Settles O36: TOW and FROMW have one meaning, whose words `word_orderWords128` and `word_orderWords256`
give. -/
theorem serializationOrdersWords : Obligations.SerializationOrdersWords := by
  intro wo s
  refine ⟨encodeWo_toNat .tow128 wo, encodeWo_toNat .fromw128 wo, encodeWo_toNat .tow256 wo,
    encodeWo_toNat .fromw256 wo, ⟨_, rfl, rfl, ?_, fun k hk => ?_⟩, _, rfl, rfl, fun k hk => ?_⟩
  · rw [zext_toNat _ (by decide)]
    exact BitVec.isLt _
  · rw [wordOf_zext_toNat, word_orderWords128 wo _ hk, ← wordOf_toNat, a128_toNat_eq_u128]
  · rw [wordOf_toNat, word_orderWords256 wo _ hk, ← wordOf_toNat]

/-- Settles O37: reordering the words twice in one order is the identity. -/
theorem serializationRoundTrips : Obligations.SerializationRoundTrips := by
  intro wo s
  refine ⟨⟨_, _, rfl, rfl, ?_⟩, ⟨_, _, rfl, rfl, orderWords256_orderWords256 wo s.a⟩,
    _, _, rfl, rfl, orderWords256_orderWords256 wo s.a⟩
  have hback : orderWords128 wo ((zext (orderWords128 wo s.a128)).extractLsb' 0 128) = s.a128 := by
    rw [lowBits_zext, orderWords128_orderWords128]
  exact zext_toNat_of_eq_a128 hback

/-! ## Shifts -/

/-- Settles O31: a left shift by n is a multiplication by 2^n before the truncation. -/
theorem shiftLeftMultiplies : Obligations.ShiftLeftMultiplies := by
  intro n s
  refine ⟨encodeN_toNat .shl128 n, encodeN_toNat .shl256 n, undecodable_of_maxN_lt (o := .shl128) rfl,
    fun h => (whenLegal_of s _ h).trans (complete_zext_of_toNat (by decide) ?_), complete_of_toNat ?_⟩
  · rw [BitVec.toNat_shiftLeft, Nat.shiftLeft_eq, a128_toNat_eq_u128]
  · rw [BitVec.toNat_shiftLeft, Nat.shiftLeft_eq]

/-- Settles O32: a right shift by n is the floor of the division by 2^n. -/
theorem shiftRightFloors : Obligations.ShiftRightFloors := by
  intro n s
  refine ⟨encodeN_toNat .shr128 n, encodeN_toNat .shr256 n, undecodable_of_maxN_lt (o := .shr128) rfl,
    fun h => (whenLegal_of s _ h).trans (complete_zext_of_toNat (by decide) ?_), complete_of_toNat ?_⟩
  · rw [BitVec.toNat_ushiftRight, Nat.shiftRight_eq_div_pow, a128_toNat_eq_u128]
  · rw [BitVec.toNat_ushiftRight, Nat.shiftRight_eq_div_pow]

end Sys2Proof.Machine
end

section
/-!
The obligations about the WideInt256 commands (41_wideint256): a value of four words is compared from word 3 down,
and a carry or a borrow ripples from word 0 up.
-/

namespace Sys2Proof.Machine

open Sys2Proof.Safety

/-! ## Words and results on R -/

theorem div_word_eq (x k : Nat) :
    x / 2 ^ (64 * k) = x / 2 ^ (64 * (k + 1)) * 2 ^ 64 + wordOf x k := by
  rw [Nat.mul_succ, Nat.pow_add, ← Nat.div_div_eq_div_mul, wordOf, Nat.div_add_mod']

theorem toNat_eq_words (x : Bus) :
    x.toNat = wordOf x.toNat 3 * 2 ^ 192 + wordOf x.toNat 2 * 2 ^ 128 + wordOf x.toNat 1 * 2 ^ 64 +
      wordOf x.toNat 0 := by
  have hx := x.isLt
  simp only [wordOf]
  omega

theorem complete_of_intCast_toNat {s : State} {r : Bus} {m : Int} (h : (r.toNat : Int) = m) :
    complete s r = .next { s with status := .ok, r := BitVec.ofInt 256 m } := by
  subst h
  simp [complete]

theorem intCast_toNat_sub {n : Nat} (x y : BitVec n) :
    ((x - y).toNat : Int) = ((x.toNat : Int) - y.toNat) % 2 ^ n := by
  rw [BitVec.toNat_sub]
  have := y.isLt
  push_cast [Nat.cast_sub this.le]
  rw [show 2 ^ n - (y.toNat : Int) + x.toNat = x.toNat - y.toNat + 2 ^ n by ring, Int.add_emod_right]

/-! ## Comparison -/

/-- Two values of n words that agree in the words from k up agree in what stands above bit 64k. -/
theorem div_eq_of_wordOf_eq {x y n k : Nat} (hx : x < 2 ^ (64 * n)) (hy : y < 2 ^ (64 * n)) (hk : k ≤ n)
    (h : ∀ j < n, k ≤ j → wordOf x j = wordOf y j) : x / 2 ^ (64 * k) = y / 2 ^ (64 * k) := by
  induction hk using Nat.decreasingInduction with
  | self => rw [Nat.div_eq_of_lt hx, Nat.div_eq_of_lt hy]
  | of_succ k hk ih =>
    rw [div_word_eq x k, div_word_eq y k, ih fun j hj hkj => h j hj (by omega), h k hk le_rfl]

theorem order_of_div_ne {x y m : Nat} (h : x / m ≠ y / m) : order x y = order (x / m) (y / m) := by
  obtain hlt | hgt := Nat.lt_or_gt_of_ne h
  · rw [order_of_lt hlt, order_of_lt (Nat.lt_of_div_lt_div hlt)]
  · rw [order_of_gt hgt, order_of_gt (Nat.lt_of_div_lt_div hgt)]

/-- The most significant word in which two values differ decides their order. -/
theorem order_of_first_differing_word {x y k : Nat} (hne : wordOf x k ≠ wordOf y k)
    (habove : x / 2 ^ (64 * (k + 1)) = y / 2 ^ (64 * (k + 1))) :
    order x y = if wordOf x k < wordOf y k then -1 else 1 := by
  have hdiv : x / 2 ^ (64 * k) ≠ y / 2 ^ (64 * k) := by
    rw [div_word_eq x, div_word_eq y, habove]
    omega
  rw [order_of_div_ne hdiv, div_word_eq x, div_word_eq y, habove, order_words (wordOf_lt ..) (wordOf_lt ..),
    if_neg (by simp), order_of_ne hne]

/-- Settles O24: R holds the order of the values, and the first differing word decides it
(`order_of_first_differing_word`). -/
theorem compareFirstDifferingWord256 : Obligations.CompareFirstDifferingWord256 := by
  intro s
  have hupper {k : Nat} (hk : k ≤ 4) := div_eq_of_wordOf_eq (n := 4) s.a.isLt s.b.isLt hk
  refine ⟨rfl, _, complete_zext_of_toNat (by decide) (compareUnsigned_toNat s.a s.b), rfl,
    fun hall => ?_, fun i hi hne habove => order_of_first_differing_word hne (hupper hi habove)⟩
  have hab : s.a.toNat = s.b.toNat := by simpa using hupper (k := 0) (by decide) fun j hj _ => hall j hj
  rw [hab, order_self]

/-! ## Addition and subtraction -/

/-- Settles O26: what a word carries on is taken from it, so the words put together are the sum up to the carry
out of word 3. -/
theorem addRipplesCarry256 : Obligations.AddRipplesCarry256 := by
  intro s
  have ha := toNat_eq_words s.a
  have hb := toNat_eq_words s.b
  refine ⟨rfl, _, _, _, _, rfl, rfl, rfl, rfl, ?hsum, complete_of_toNat ?hr⟩
  case hsum => omega
  case hr =>
    rw [BitVec.toNat_add]
    omega

/-- What a word difference t takes from the next word (41_wideint256 R72). -/
def borrow (t : Int) : Int := if t < 0 then 1 else 0

theorem borrow_range (t : Int) : 0 ≤ borrow t ∧ borrow t ≤ 1 := by
  unfold borrow
  split_ifs <;> decide

/-- What a word borrows from the next is 2^64 to the word itself. -/
theorem word_sub_emod (x y k : Nat) {t c : Int} (hc : 0 ≤ c ∧ c ≤ 1) (ht : t = wordOf x k - wordOf y k - c) :
    t % 2 ^ 64 = t + borrow t * 2 ^ 64 := by
  have hx := wordOf_lt x k
  have hy := wordOf_lt y k
  unfold borrow
  split_ifs <;> omega

/-- The borrows cancel between neighbouring words, so the words put together are the difference up to the borrow
out of word 3. -/
theorem words_sub_emod {a b : Bus} {t0 t1 t2 t3 : Int} (h0 : t0 = wordOf a.toNat 0 - wordOf b.toNat 0)
    (h1 : t1 = wordOf a.toNat 1 - wordOf b.toNat 1 - borrow t0)
    (h2 : t2 = wordOf a.toNat 2 - wordOf b.toNat 2 - borrow t1)
    (h3 : t3 = wordOf a.toNat 3 - wordOf b.toNat 3 - borrow t2) :
    t3 % 2 ^ 64 * 2 ^ 192 + t2 % 2 ^ 64 * 2 ^ 128 + t1 % 2 ^ 64 * 2 ^ 64 + t0 % 2 ^ 64 =
      ((a.toNat : Int) - b.toNat) % 2 ^ 256 := by
  have e0 := word_sub_emod _ _ 0 (c := 0) (by decide) (h0.trans (sub_zero _).symm)
  have e1 := word_sub_emod _ _ 1 (borrow_range t0) h1
  have e2 := word_sub_emod _ _ 2 (borrow_range t1) h2
  have e3 := word_sub_emod _ _ 3 (borrow_range t2) h3
  have ha := toNat_eq_words a
  have hb := toNat_eq_words b
  omega

/-- Settles O28: the words the borrow chain leaves are those of the difference (`words_sub_emod`). -/
theorem subRipplesBorrow256 : Obligations.SubRipplesBorrow256 := by
  intro s
  have hdiff := words_sub_emod (a := s.a) (b := s.b) rfl rfl rfl rfl
  exact ⟨rfl, _, _, _, _, rfl, rfl, rfl, rfl, hdiff,
    complete_of_intCast_toNat ((intCast_toNat_sub s.a s.b).trans hdiff.symm)⟩

end Sys2Proof.Machine
end

section
/-!
The obligations about the ExtraWord commands (42_extraword). SHRX128 answers the extra word of one SHRX64: of the
low word up to distance 64, and beyond it of the high word by what is left of the distance, with the low word
joined to what is jammed. So R80's contract is proved of SHRX64 alone, for any fraction of which the incoming
extra word says whether it is zero.
-/

namespace Sys2Proof.Machine

open Sys2Proof.Safety

/-! ## The parts of a pair and of a shifted value -/

theorem append_toNat {m k : Nat} (e : BitVec m) (v : BitVec k) : (e ++ v).toNat = e.toNat * 2 ^ k + v.toNat := by
  rw [BitVec.toNat_append, ← Nat.shiftLeft_add_eq_or_of_lt v.isLt, Nat.shiftLeft_eq]

theorem zext_append_mod {m k : Nat} (e : BitVec m) (v : BitVec k) (h : m + k ≤ 256) :
    (zext (e ++ v)).toNat % 2 ^ k = v.toNat := by
  rw [zext_toNat _ h, append_toNat, Nat.mul_add_mod_self_right, Nat.mod_eq_of_lt v.isLt]

theorem zext_append_div {m k : Nat} (e : BitVec m) (v : BitVec k) (h : m + k ≤ 256) :
    (zext (e ++ v)).toNat / 2 ^ k = e.toNat := by
  rw [zext_toNat _ h, append_toNat, Nat.add_comm, Nat.add_mul_div_right _ _ (Nat.two_pow_pos k),
    Nat.div_eq_of_lt v.isLt, Nat.zero_add]

theorem low_word_toNat {m : Nat} (v : BitVec m) : (word v 0).toNat = v.toNat % 2 ^ 64 := by simp [word_toNat]

theorem high_word_toNat (v : Wide128) : (word v 1).toNat = v.toNat / 2 ^ 64 := by
  have := v.isLt
  rw [word_toNat]
  omega

/-- The low bits of the next word come down from above. -/
theorem word_ushiftRight {m : Nat} (v : BitVec m) (k : Nat) {n : Nat} (hn : n ≤ 64) :
    word (v >>> n) k = (word v (k + 1) <<< (64 - n)) ||| (word v k >>> n) := by
  apply BitVec.eq_of_getLsbD_eq
  intro j hj
  by_cases hcross : n + j < 64
  · simp [word, hj, hcross, show j < 64 - n by omega, Nat.add_left_comm]
  · have hnext : 64 * (k + 1) + (j - (64 - n)) = n + (64 * k + j) := by omega
    simp [word, hj, hcross, hnext, show ¬j < 64 - n by omega]

theorem ushiftRight_eq_words (v : Wide128) {n : Nat} (hn : n ≤ 64) :
    v >>> n = (word v 1 >>> n) ++ ((word v 1 <<< (64 - n)) ||| (word v 0 >>> n)) := by
  refine eq_of_word_eq (by decide) fun k hk => ?_
  obtain rfl | rfl : k = 0 ∨ k = 1 := by omega
  · exact (word_ushiftRight v 0 hn).trans (words_of_pair ..).1.symm
  · have htop : word v 2 = 0#64 := by
      apply BitVec.eq_of_toNat_eq
      rw [word_toNat, Nat.div_eq_of_lt v.isLt]
      rfl
    rw [word_ushiftRight v 1 hn, htop, (words_of_pair ..).2]
    simp

/-- Beyond the low word, only the high word is left. -/
theorem ushiftRight_eq_high_word (v : Wide128) {n : Nat} (hn : 64 ≤ n) :
    v >>> n = 0#64 ++ (word v 1 >>> (n - 64)) := by
  apply BitVec.eq_of_toNat_eq
  rw [append_toNat, BitVec.toNat_ushiftRight, BitVec.toNat_ushiftRight, Nat.shiftRight_eq_div_pow,
    Nat.shiftRight_eq_div_pow, high_word_toNat, Nat.div_div_eq_div_mul, ← Nat.pow_add, Nat.add_sub_cancel' hn]
  simp

/-! ## SHRX64 and SHRX128 case by case -/

section
variable (v x : Word64) {n : Nat}

@[simp] theorem shiftJam64_zero : shiftJam64 v x 0 = (v, x) := rfl

theorem shiftJam64_of_lt (h0 : 0 < n) (h : n < 64) : shiftJam64 v x n = (v >>> n, jam (v <<< (64 - n)) x) := by
  rw [shiftJam64, if_neg h0.ne', if_pos h]

theorem shiftJam64_64 : shiftJam64 v x 64 = (0#64, jam v x) := rfl

theorem shiftJam64_of_gt (h : 64 < n) : shiftJam64 v x n = (0#64, jam (collapsed v (n - 64)) x) := by
  rw [shiftJam64, if_neg (by omega), if_neg (by omega)]

theorem shiftJam64_fst (n : Nat) : (shiftJam64 v x n).1.toNat = v.toNat / 2 ^ n := by
  rw [← Nat.shiftRight_eq_div_pow, ← BitVec.toNat_ushiftRight]
  unfold shiftJam64
  split_ifs with h0 h64
  · simp [h0]
  · rfl
  · rw [BitVec.ushiftRight_eq_zero (by omega)]

end

@[simp] theorem shiftJam128_zero (v : Wide128) (x : Word64) : shiftJam128 v x 0 = (v, x) := rfl

theorem shiftJam128_of_le (v : Wide128) (x : Word64) {n : Nat} (hn : n ≤ 64) :
    shiftJam128 v x n = (v >>> n, (shiftJam64 (word v 0) x n).2) := by
  obtain rfl | h0 := Nat.eq_zero_or_pos n
  · simp
  · obtain h | rfl := Nat.lt_or_eq_of_le hn
    · rw [shiftJam64_of_lt _ _ h0 h, ushiftRight_eq_words v hn]
      simp only [shiftJam128, h0.ne', h, if_true, if_false]
    · rw [ushiftRight_eq_high_word v hn]
      rfl

theorem shiftJam128_of_gt (v : Wide128) (x : Word64) {n : Nat} (hn : 64 < n) :
    shiftJam128 v x n = (v >>> n, (shiftJam64 (word v 1) (x ||| word v 0) (n - 64)).2) := by
  have h0 : n ≠ 0 := by omega
  obtain h | h := Nat.lt_or_ge n 128
  · rw [shiftJam64_of_lt _ _ (by omega) (by omega), ushiftRight_eq_high_word v hn.le]
    simp only [shiftJam128, h0, hn.ne', hn.not_gt, h, if_true, if_false, show 64 - (n - 64) = 128 - n by omega]
  · rw [BitVec.ushiftRight_eq_zero h]
    unfold shiftJam128 shiftJam64
    simp [h0, hn.not_gt, hn.ne', h.not_gt, show n - 64 ≠ 0 by omega, show ¬n - 64 < 64 by omega, Nat.sub_sub]

theorem shiftJam128_fst (v : Wide128) (x : Word64) (n : Nat) : (shiftJam128 v x n).1.toNat = v.toNat / 2 ^ n := by
  rw [← Nat.shiftRight_eq_div_pow, ← BitVec.toNat_ushiftRight]
  obtain h | h := le_or_gt n 64
  · rw [shiftJam128_of_le v x h]
  · rw [shiftJam128_of_gt v x h]

/-! ## Extra words as numbers -/

theorem jam_toNat_eq_jammed (e x : Word64) : (jam e x).toNat = jammed e.toNat x.toNat := jam_toNat e x

theorem or_one_eq (w : Nat) : w ||| 1 = w / 2 * 2 + 1 := by
  have hdiv : (w ||| 1) / 2 = w / 2 := by simp [Nat.or_div_two]
  have hmod : (w ||| 1) % 2 = 1 := by simp [Nat.or_mod_two_eq_one]
  omega

/-- The bits the primary discards, left-aligned (R81). -/
theorem shiftJam64_snd_toNat (v x : Word64) {n : Nat} (h0 : 0 < n) (h64 : n ≤ 64) :
    (shiftJam64 v x n).2.toNat = jammed (v.toNat * 2 ^ (64 - n) % 2 ^ 64) x.toNat := by
  obtain h | rfl := Nat.lt_or_eq_of_le h64
  · rw [shiftJam64_of_lt v x h0 h, jam_toNat_eq_jammed, BitVec.toNat_shiftLeft, Nat.shiftLeft_eq]
  · rw [shiftJam64_64, jam_toNat_eq_jammed, Nat.sub_self, Nat.pow_zero, Nat.mul_one, Nat.mod_eq_of_lt v.isLt]

theorem shiftJam64_snd_toNat_of_gt (v x : Word64) {n : Nat} (h : 64 < n) :
    (shiftJam64 v x n).2.toNat = jammed (if v.toNat ≠ 0 then 1 else 0) x.toNat := by
  rw [shiftJam64_of_gt v x h, jam_toNat_eq_jammed, collapsed_toNat, if_neg (by omega)]
  simp only [ne_eq, ite_not]

/-! ## R80's classification -/

/-- Against one half, an extra word and the fraction it classifies compare alike. -/
theorem classifies_iff {e d q : Nat} (hq : 0 < q) : Classifies e d q ↔
    (e = 0 ↔ d = 0) ∧ (e < 2 ^ 63 ↔ 2 * d < q) ∧ (2 ^ 63 < e ↔ q < 2 * d) := by
  omega

/-- The first 64 bits of a fraction with no others classify it. -/
theorem classifies_mul {r p k : Nat} (hp : p * k = 2 ^ 64) : Classifies (r * k) r p := by
  have hpk : 0 < p * k := by rw [hp]; decide
  have hp0 := Nat.pos_of_mul_pos_right hpk
  have hk0 := Nat.pos_of_mul_pos_left hpk
  have hlt : 2 * r < p ↔ 2 * r * k < p * k := (Nat.mul_lt_mul_right hk0).symm
  have hgt : p < 2 * r ↔ p * k < 2 * r * k := (Nat.mul_lt_mul_right hk0).symm
  have h0 : r * k = 0 ↔ r = 0 := by simp [hk0.ne']
  rw [classifies_iff hp0]
  rw [Nat.mul_assoc] at hlt hgt
  omega

/-- A fraction below one half is classified by whether it is zero. -/
theorem classifies_of_lt_half {r p : Nat} (h : 2 * r < p) : Classifies (if r ≠ 0 then 1 else 0) r p := by
  rw [classifies_iff (Nat.zero_lt_of_lt h)]
  split_ifs with hr
  · simp [hr]
    omega
  · omega

/-- Jamming lifts an extra word off zero and off one half, and leaves it on its side of one half. -/
theorem jammed_order (w x : Nat) :
    (jammed w x = 0 ↔ w = 0 ∧ x = 0) ∧ (jammed w x < 2 ^ 63 ↔ w < 2 ^ 63) ∧
    (2 ^ 63 < jammed w x ↔ 2 ^ 63 < w ∨ w = 2 ^ 63 ∧ x ≠ 0) := by
  unfold jammed
  split_ifs with hx
  · omega
  · rw [or_one_eq]
    omega

/-- If w classifies r/2^n, n positive, then jamming x makes it classify (r + d/q)/2^n, where x says whether d is
zero: r is compared with 2^(n-1) = m, and d/q < 1 decides only where they are equal. -/
theorem jammed_classifies {w x r n d q : Nat} (hn : 0 < n) (hw : Classifies w r (2 ^ n)) (hd : d < q)
    (hx : x = 0 ↔ d = 0) : Classifies (jammed w x) (r * q + d) (q * 2 ^ n) := by
  obtain ⟨m, hm⟩ : ∃ m, 2 ^ n = 2 * m := dvd_pow_self 2 hn.ne'
  have hq : 0 < q := Nat.zero_lt_of_lt hd
  have hpow : 0 < 2 ^ n := by positivity
  rw [classifies_iff hpow] at hw
  rw [classifies_iff (Nat.mul_pos hq hpow)]
  have hzero : r * q = 0 ↔ r = 0 := by simp [hq.ne']
  have hbelow : r < m → r * q + q ≤ m * q := fun h => Nat.succ_mul r q ▸ Nat.mul_le_mul_right q h
  have habove : m < r → m * q < r * q := fun h => Nat.mul_lt_mul_of_pos_right h hq
  obtain ⟨hj0, hjlt, hjgt⟩ := jammed_order w x
  rw [hj0, hjlt, hjgt, hm, show q * (2 * m) = 2 * (m * q) by ring]
  obtain h | rfl | h := Nat.lt_trichotomy r m
  · have := hbelow h
    omega
  · omega
  · have := habove h
    omega

/-- A fraction d/q added to v is left in the rest of the division by p. -/
theorem div_mod_fraction (v p : Nat) {d q : Nat} (hd : d < q) :
    (v * q + d) / (q * p) = v / p ∧ (v * q + d) % (q * p) = v % p * q + d := by
  have hfloor : (v * q + d) / q = v := by
    rw [Nat.mul_comm, Nat.mul_add_div (Nat.zero_lt_of_lt hd), Nat.div_eq_of_lt hd, Nat.add_zero]
  constructor
  · rw [← Nat.div_div_eq_div_mul, hfloor]
  · rw [Nat.mod_mul, hfloor, Nat.mul_add_mod_self_right, Nat.mod_eq_of_lt hd]
    ring

theorem shiftJam64_classifies (v x : Word64) {n d q : Nat} (h0 : 0 < n) (hd : d < q)
    (hx : x.toNat = 0 ↔ d = 0) :
    Classifies (shiftJam64 v x n).2.toNat (v.toNat % 2 ^ n * q + d) (q * 2 ^ n) := by
  obtain h | h := le_or_gt n 64
  · rw [shiftJam64_snd_toNat v x h0 h]
    have hpow : 2 ^ n * 2 ^ (64 - n) = 2 ^ 64 := by rw [← Nat.pow_add, Nat.add_sub_cancel' h]
    refine jammed_classifies h0 ?_ hd hx
    rw [← hpow, Nat.mul_mod_mul_right]
    exact classifies_mul hpow
  · rw [shiftJam64_snd_toNat_of_gt v x h]
    have hhalf : 2 * v.toNat < 2 ^ n := calc
      2 * v.toNat < 2 ^ 65 := by have := v.isLt; omega
      _ ≤ 2 ^ n := Nat.pow_le_pow_right (by decide) h
    rw [Nat.mod_eq_of_lt (by omega)]
    exact jammed_classifies h0 (classifies_of_lt_half hhalf) hd hx

/-- Beyond distance 64 the low word and d/q make one fraction, discarded from the high word. -/
theorem shiftJam128_classifies (v : Wide128) (x : Word64) {n d q : Nat} (h0 : 0 < n) (hd : d < q)
    (hx : x.toNat = 0 ↔ d = 0) :
    Classifies (shiftJam128 v x n).2.toNat (v.toNat % 2 ^ n * q + d) (q * 2 ^ n) := by
  obtain h | h := le_or_gt n 64
  · have hlow : (word v 0).toNat % 2 ^ n = v.toNat % 2 ^ n := by
      rw [low_word_toNat, Nat.mod_mod_of_dvd _ (Nat.pow_dvd_pow 2 h)]
    rw [shiftJam128_of_le v x h, ← hlow]
    exact shiftJam64_classifies (word v 0) x h0 hd hx
  · have hn : 2 ^ n = 2 ^ 64 * 2 ^ (n - 64) := by rw [← Nat.pow_add, Nat.add_sub_cancel' h.le]
    have hrest : v.toNat % 2 ^ n * q + d =
        (word v 1).toNat % 2 ^ (n - 64) * (q * 2 ^ 64) + ((word v 0).toNat * q + d) := by
      rw [hn, Nat.mod_mul, low_word_toNat, high_word_toNat]
      ring
    rw [shiftJam128_of_gt v x h, hrest, hn, ← Nat.mul_assoc q]
    refine shiftJam64_classifies (word v 1) _ (by omega) ?_ ?_
    · have := Nat.mul_le_mul_right q (word v 0).isLt
      rw [Nat.succ_mul] at this
      omega
    · have hq : q ≠ 0 := Nat.ne_zero_of_lt hd
      simp [hx, hq, and_comm]

/-! ## The obligations -/

/-- Settles O38: the case equations of `shiftJam64`, as numbers. -/
theorem shiftJam64ByDistance : Obligations.ShiftJam64ByDistance := by
  intro n s
  have ha : s.a64.toNat = u64 s.a := a64_toNat s
  have hb : s.b64.toNat = u64 s.b := b64_toNat s
  have hv : (shiftJam64 s.a64 s.b64 n.toNat).1.toNat = u64 s.a / 2 ^ n.toNat := by
    rw [shiftJam64_fst, ha]
  have hv0 (h : 64 ≤ n.toNat) : u64 s.a / 2 ^ n.toNat = 0 :=
    Nat.div_eq_of_lt ((ha ▸ s.a64.isLt).trans_le (Nat.pow_le_pow_right (by decide) h))
  refine ⟨encodeN_toNat .shrx64 n, _, _, BitVec.isLt _, BitVec.isLt _,
    complete_zext_of_toNat (by decide) (append_toNat ..), fun h => ?_, fun h0 h => ⟨hv, ?_⟩,
    fun h => ⟨hv.trans (hv0 h.ge), ?_⟩, fun h => ⟨hv.trans (hv0 h.le), ?_⟩⟩
  · rw [h]
    exact ⟨ha, hb⟩
  · rw [shiftJam64_snd_toNat _ _ h0 h.le, ha, hb]
  · rw [h, shiftJam64_64, jam_toNat_eq_jammed, ha, hb]
  · rw [shiftJam64_snd_toNat_of_gt _ _ h, ha, hb]

/-- Settles O39: the extra word is that of SHRX64 on the word the boundary falls in. -/
theorem shiftJam128ByDistance : Obligations.ShiftJam128ByDistance := by
  intro n s
  have hb : s.b64.toNat = u64 s.b := b64_toNat s
  have hword (k : Nat) : (word s.a128 k).toNat = wordOf (u128 s.a) k := by
    rw [← wordOf_toNat, a128_toNat_eq_u128]
  have hjam : (s.b64 ||| word s.a128 0).toNat = u64 s.b ||| wordOf (u128 s.a) 0 := by
    rw [BitVec.toNat_or, hb, hword]
  have hv : (shiftJam128 s.a128 s.b64 n.toNat).1.toNat = u128 s.a / 2 ^ n.toNat := by
    rw [shiftJam128_fst, a128_toNat_eq_u128]
  refine ⟨encodeN_toNat .shrx128 n, _, _, hv, BitVec.isLt _,
    complete_zext_of_toNat (by decide) (append_toNat ..), fun h => ?_, fun h0 h => ?_,
    fun h => ?_, fun h h128 => ?_, fun h => ?_, fun h => ?_⟩
  · rw [h, shiftJam128_of_le _ _ (by decide), shiftJam64_zero, hb]
  · rw [shiftJam128_of_le _ _ h.le, shiftJam64_snd_toNat _ _ h0 h.le, hword, hb]
  · rw [h, shiftJam128_of_le _ _ le_rfl, shiftJam64_64, jam_toNat_eq_jammed, hword, hb]
  · rw [shiftJam128_of_gt _ _ h, shiftJam64_snd_toNat _ _ (by omega) (by omega), hjam, hword,
      show 64 - (n.toNat - 64) = 128 - n.toNat by omega]
  · rw [h, shiftJam128_of_gt _ _ (by decide), shiftJam64_64, jam_toNat_eq_jammed, hjam, hword]
  · rw [shiftJam128_of_gt _ _ (by omega), shiftJam64_snd_toNat_of_gt _ _ (by omega), hjam, hword]

/-- Settles O40: the value is v + d/q, of which the primary takes the floor (`div_mod_fraction`). At distance 0
the incoming extra word is still the answer; else what is left is classified by `shiftJam64_classifies` and
`shiftJam128_classifies`. -/
theorem extraWordClassifiesTheDiscardedPart : Obligations.ExtraWordClassifiesTheDiscardedPart := by
  intro n s d q hd hc
  have ha : s.a64.toNat = u64 s.a := a64_toNat s
  have hb : s.b64.toNat = u64 s.b := b64_toNat s
  have ⟨hzero, _⟩ := hc
  have hx : s.b64.toNat = 0 ↔ d = 0 := hb ▸ hzero
  obtain ⟨hq64, hr64⟩ := div_mod_fraction (u64 s.a) (2 ^ n.toNat) hd
  obtain ⟨hq128, hr128⟩ := div_mod_fraction (u128 s.a) (2 ^ n.toNat) hd
  refine ⟨⟨_, rfl, ?_, ?_⟩, _, rfl, ?_, ?_⟩
  · rw [zext_append_mod _ _ (by decide), shiftJam64_fst, hq64, ha]
  · rw [zext_append_div _ _ (by decide), hr64, ← ha]
    obtain h0 | h0 := Nat.eq_zero_or_pos n.toNat
    · simpa [h0, Nat.mod_one, hb] using hc
    · exact shiftJam64_classifies _ _ h0 hd hx
  · rw [zext_append_mod _ _ (by decide), shiftJam128_fst, hq128, a128_toNat_eq_u128]
  · rw [zext_append_div _ _ (by decide), hr128, ← a128_toNat_eq_u128]
    obtain h0 | h0 := Nat.eq_zero_or_pos n.toNat
    · simpa [h0, Nat.mod_one, hb] using hc
    · exact shiftJam128_classifies _ _ h0 hd hx

end Sys2Proof.Machine
end

section
/-!
The rounding engine (43_rounding) on plain integers. A command rounds ±(k + r/(2h)), with h = 2^11 in the 32-bit
paths and h = 2^63 in the 64-bit paths: the increment carries into k, a tie is cleared under NearestEven, the range
is checked, and bit 0 is set under Odd. The integer it ends on is the exact rounding (`roundExact_signedValue`),
and the four roundings of the machine have this one shape (`roundU32_eq`, `roundI32_eq`, `roundU64_eq`,
`roundI64_eq`).
-/

namespace Sys2Proof.Machine

open Sys2Proof.Safety

@[simp] theorem signedValue_false (n : Nat) : signedValue false n = n := rfl

@[simp] theorem signedValue_true (n : Nat) : signedValue true n = -n := rfl

theorem discards_signedValue (sign : Bool) (n d : Nat) : Discards (signedValue sign n) d ↔ n % d ≠ 0 := by
  have hdvd : (d : Int) ∣ signedValue sign n ↔ d ∣ n := by cases sign <;> simp [Int.natCast_dvd_natCast]
  rw [Discards, ne_eq, ← Int.dvd_iff_emod_eq_zero, hdvd, Nat.dvd_iff_mod_eq_zero]

/-! ## The integer the engine ends on -/

/-- What an increment carries into the integer part of k + r/(2h) (R84). -/
def Increment.carry (i : Increment) (r h : Nat) : Nat :=
  match i with
  | .none => 0
  | .half => if h ≤ r then 1 else 0
  | .full => if r = 0 then 0 else 1

/-- `clearTie` on numbers. -/
def tieCleared (m : RoundingMode) (tie : Bool) (n : Nat) : Nat :=
  if m = .nearestEven ∧ tie = true then n / 2 * 2 else n

/-- `forceOdd` on integers: an even value gives way to the odd one above it. -/
def oddForced (m : RoundingMode) (inexact : Bool) (z : Int) : Int :=
  if m = .odd ∧ inexact = true then z / 2 * 2 + 1 else z

/-- The magnitude k + r/(2h) after the increment and the ties-to-even correction (R86 to R89, step 3). -/
def settledMagnitude (m : RoundingMode) (i : Increment) (k r h : Nat) : Nat :=
  tieCleared m (r == h) (k + i.carry r h)

/-- The same with its sign: what the range check of a path sees (R87, R89). -/
def settledValue (oddNeg : OddNegIncrement) (m : RoundingMode) (sign : Bool) (k r h : Nat) : Int :=
  signedValue sign (settledMagnitude m (signedIncrement oddNeg m sign) k r h)

theorem settledMagnitude_exact (m : RoundingMode) (i : Increment) (k : Nat) {h : Nat} (hh : 0 < h) :
    settledMagnitude m i k 0 h = k := by
  cases i <;> simp [settledMagnitude, tieCleared, Increment.carry, hh.ne, hh.ne']

/-- The fraction is read through three comparisons: with zero, and with the half from either side. -/
theorem settledMagnitude_congr (m : RoundingMode) (i : Increment) (k : Nat) {r h r' h' : Nat}
    (h0 : r = 0 ↔ r' = 0) (hlt : r < h ↔ r' < h') (hgt : h < r ↔ h' < r') :
    settledMagnitude m i k r h = settledMagnitude m i k r' h' := by
  have hle : h ≤ r ↔ h' ≤ r' := by omega
  have htie : (r == h) = (r' == h') := by
    rw [Bool.eq_iff_iff, beq_iff_eq, beq_iff_eq]
    omega
  cases i <;> simp only [settledMagnitude, Increment.carry, h0, hle, htie]

/-- ODD_NEG_INCREMENT matters to a negative value under Odd alone (R84). -/
theorem settledValue_eq_full {oddNeg : OddNegIncrement} {m : RoundingMode} {sign : Bool}
    (hodd : m = .odd → sign = true → oddNeg = .full) (k r h : Nat) :
    settledValue oddNeg m sign k r h = settledValue .full m sign k r h := by
  have hincrement : signedIncrement oddNeg m sign = signedIncrement .full m sign := by
    cases sign
    · cases m <;> rfl
    · cases m
      case odd => rw [hodd rfl rfl]
      all_goals rfl
  rw [settledValue, hincrement, settledValue]

/-! ## It is the exact rounding (R90) -/

theorem roundExact_mul (m : RoundingMode) (q : Int) {d : Nat} (hd : 0 < d) : roundExact m (q * d) d = q := by
  have hd0 : (d : Int) ≠ 0 := by omega
  simp [roundExact, Int.mul_ediv_cancel q hd0]

/-- k + r/(2h) with a fraction lies between k and k + 1. -/
theorem roundExact_pos (m : RoundingMode) (k : Nat) {r h : Nat} (h0 : r ≠ 0) (hr : r < 2 * h) :
    roundExact m (k * (2 * h : Nat) + r) (2 * h) = oddForced m true (settledValue .full m false k r h) := by
  obtain ⟨hdiv, hmod⟩ : (k * (2 * h : Nat) + r : Int) / (2 * h : Nat) = k ∧
      (k * (2 * h : Nat) + r : Int) % (2 * h : Nat) = r :=
    (Int.ediv_emod_unique (by omega)).mpr ⟨by ring, by omega⟩
  have hnum : ¬(k * (2 * h : Nat) + r : Int) < 0 := not_lt.mpr (by positivity)
  have hr0 : (r : Int) ≠ 0 := by omega
  simp only [roundExact, hdiv, hmod, hnum, hr0, if_false, settledValue, signedValue_false]
  cases m
  case towardZero | towardNegative | towardPositive =>
    simp [signedIncrement, Increment.carry, settledMagnitude, tieCleared, oddForced, h0]
  case nearestEven | nearestMaxMagnitude | odd =>
    simp only [signedIncrement, Increment.carry, settledMagnitude, tieCleared, oddForced, reduceCtorEq,
      beq_iff_eq, true_and, and_true, false_and, if_true, if_false]
    split_ifs <;> omega

/-- -(k + r/(2h)) with a fraction lies between -k - 1 and -k, by 1 - r/(2h) above the lower. -/
theorem roundExact_neg (m : RoundingMode) (k : Nat) {r h : Nat} (h0 : r ≠ 0) (hr : r < 2 * h) :
    roundExact m (-(k * (2 * h : Nat) + r)) (2 * h) = oddForced m true (settledValue .full m true k r h) := by
  obtain ⟨hdiv, hmod⟩ : -(k * (2 * h : Nat) + r : Int) / (2 * h : Nat) = -k - 1 ∧
      -(k * (2 * h : Nat) + r : Int) % (2 * h : Nat) = (2 * h - r : Nat) :=
    (Int.ediv_emod_unique (by omega)).mpr ⟨by push_cast [Nat.cast_sub hr.le]; ring, by omega⟩
  have hnum : -(k * (2 * h : Nat) + r : Int) < 0 := by
    have : 0 ≤ (k * (2 * h : Nat) : Int) := by positivity
    omega
  have hr0 : ((2 * h - r : Nat) : Int) ≠ 0 := by omega
  simp only [roundExact, hdiv, hmod, hnum, hr0, if_true, if_false, settledValue, signedValue_true]
  cases m
  case towardZero | towardNegative | towardPositive =>
    simp [signedIncrement, Increment.carry, settledMagnitude, tieCleared, oddForced, h0, sub_eq_neg_add]
  case nearestEven | nearestMaxMagnitude | odd =>
    simp only [signedIncrement, Increment.carry, settledMagnitude, tieCleared, oddForced, h0, reduceCtorEq,
      beq_iff_eq, true_and, and_true, false_and, if_true, if_false]
    split_ifs <;> omega

/-- What the engine ends on for ±n/d is the exact rounding. -/
theorem roundExact_signedValue (m : RoundingMode) (sign : Bool) (n : Nat) {d h : Nat} (hd : d = 2 * h)
    (hh : 0 < h) :
    roundExact m (signedValue sign n) d =
      oddForced m (n % d != 0) (settledValue .full m sign (n / d) (n % d) h) := by
  subst hd
  have hn : (n : Int) = (n / (2 * h) : Nat) * (2 * h : Nat) + (n % (2 * h) : Nat) := by
    exact_mod_cast (Nat.div_add_mod' n (2 * h)).symm
  have hr := Nat.mod_lt n (show 2 * h > 0 by omega)
  by_cases h0 : n % (2 * h) = 0
  · have hexact : signedValue sign n = signedValue sign (n / (2 * h)) * (2 * h : Nat) := by
      rw [h0, Nat.cast_zero, add_zero] at hn
      cases sign
      · exact hn
      · rw [signedValue_true, signedValue_true, hn, neg_mul]
    rw [hexact, roundExact_mul m _ (by omega), h0, settledValue, settledMagnitude_exact _ _ _ hh]
    simp [oddForced]
  · have hbits : (n % (2 * h) != 0) = true := by simpa using h0
    rw [hbits]
    cases sign
    · rw [signedValue_false, hn]
      exact roundExact_pos m _ h0 hr
    · rw [signedValue_true, hn]
      exact roundExact_neg m _ h0 hr

/-! ## The corrections on patterns -/

theorem clearTie_ofNat {w : Nat} (m : RoundingMode) (tie : Bool) {n : Nat} (hn : n < 2 ^ (w + 1)) :
    clearTie m tie (BitVec.ofNat (w + 1) n) = BitVec.ofNat (w + 1) (tieCleared m tie n) := by
  apply BitVec.eq_of_toNat_eq
  rw [clearTie_toNat, BitVec.toNat_ofNat, BitVec.toNat_ofNat, Nat.mod_eq_of_lt hn, tieCleared, Nat.mod_eq_of_lt]
  split_ifs <;> omega

theorem tieCleared_lt_iff {w : Nat} (m : RoundingMode) (tie : Bool) (n : Nat) :
    tieCleared m tie n < 2 ^ (w + 1) ↔ n < 2 ^ (w + 1) := by
  rw [tieCleared, Nat.pow_succ]
  split_ifs <;> omega

/-- Bit 0 stands apart in a remainder by an even number. -/
theorem mul_two_add_emod (a : Int) {b p : Int} (hb : 0 ≤ b ∧ b < 2) (hp : 0 < p) :
    (a * 2 + b) % (2 * p) = a % p * 2 + b := by
  have hlt := Int.emod_lt_of_pos a hp
  have hnonneg := Int.emod_nonneg a hp.ne'
  refine ((Int.ediv_emod_unique (q := a / p) (by omega)).mpr ⟨?_, by omega, by omega⟩).2
  conv_rhs => rw [← Int.emod_add_mul_ediv a p]
  ring

theorem forceOdd_ofInt {w : Nat} (m : RoundingMode) (inexact : Bool) (z : Int) :
    forceOdd m inexact (BitVec.ofInt (w + 1) z) = BitVec.ofInt (w + 1) (oddForced m inexact z) := by
  apply BitVec.eq_of_toNat_eq
  rw [forceOdd_toNat, oddForced]
  split_ifs
  · have hpow : ((2 ^ (w + 1) : Nat) : Int) = 2 * 2 ^ w := by push_cast; ring
    have hpos : (0 : Int) < 2 ^ w := by positivity
    have hnonneg := Int.emod_nonneg (z / 2) hpos.ne'
    have hz : z % (2 * 2 ^ w) = z / 2 % 2 ^ w * 2 + z % 2 := by
      rw [← mul_two_add_emod _ (by omega) hpos, Int.ediv_mul_add_emod]
    rw [BitVec.toNat_ofInt, BitVec.toNat_ofInt, hpow, mul_two_add_emod _ (by decide) hpos, hz]
    omega
  · rfl

/-- The Odd correction does not leave a range with even bounds. -/
theorem oddForced_mem_iff (m : RoundingMode) (inexact : Bool) {lo hi : Int} (hlo : 2 ∣ lo) (hhi : 2 ∣ hi)
    (z : Int) : lo ≤ oddForced m inexact z ∧ oddForced m inexact z < hi ↔ lo ≤ z ∧ z < hi := by
  unfold oddForced
  split_ifs <;> omega

/-! ## The range checks -/

/-- The end of every path: the pattern of z with the Odd correction if z is in range, else the invalid path. -/
def settleWithin {w : Nat} (lo hi : Int) (m : RoundingMode) (inexact : Bool) (z : Int) : Rounded w :=
  if lo ≤ z ∧ z < hi then .value (forceOdd m inexact (BitVec.ofInt w z)) inexact else .invalid

/-- The end of an unsigned path, with the check for a carry out of the magnitude (R86, R88). -/
theorem settleUnsigned_ofNat {w : Nat} (m : RoundingMode) (sign tie inexact : Bool) (n : Nat) :
    (if 2 ^ (w + 1) ≤ n then .invalid else settleUnsigned m sign tie inexact (BitVec.ofNat (w + 1) n)) =
      settleWithin 0 (2 ^ (w + 1)) m inexact (signedValue sign (tieCleared m tie n)) := by
  have hc := tieCleared_lt_iff (w := w) m tie n
  have hpow : ((2 ^ (w + 1) : Nat) : Int) = 2 ^ (w + 1) := by push_cast; rfl
  unfold settleWithin
  by_cases hn : n < 2 ^ (w + 1)
  · have hz : BitVec.ofNat (w + 1) (tieCleared m tie n) ≠ 0#(w + 1) ↔ tieCleared m tie n ≠ 0 := by
      simp [← BitVec.toNat_inj, Nat.mod_eq_of_lt (hc.mpr hn)]
    rw [if_neg (by omega), settleUnsigned, clearTie_ofNat m tie hn]
    simp only [hz]
    cases sign
    · rw [if_neg (by simp), signedValue_false, if_pos (by omega), BitVec.ofInt_natCast]
    · by_cases h0 : tieCleared m tie n = 0
      · simp [h0]
      · rw [if_pos ⟨rfl, h0⟩, signedValue_true, if_neg (by omega)]
  · rw [if_pos (by omega), if_neg]
    cases sign
    · rw [signedValue_false]; omega
    · rw [signedValue_true]; omega

/-- The sign mismatch of a magnitude taken with its sign is the signed range check (R87, R89). -/
theorem sign_mismatch_iff {w c : Nat} (sign : Bool) (hc : c < 2 ^ (w + 1)) :
    (BitVec.ofInt (w + 1) (signedValue sign c) ≠ 0#(w + 1) ∧
      (BitVec.ofInt (w + 1) (signedValue sign c)).msb ≠ sign) ↔
    ¬(-2 ^ w ≤ signedValue sign c ∧ signedValue sign c < 2 ^ w) := by
  have hpow : ((2 ^ w : Nat) : Int) = 2 ^ w := by push_cast; rfl
  have hc' : c < 2 * 2 ^ w := by rwa [Nat.pow_succ'] at hc
  rw [ne_eq, ← BitVec.toNat_inj, BitVec.msb_eq_decide]
  cases sign
  · have hpos : (BitVec.ofInt (w + 1) (signedValue false c)).toNat = c := by
      rw [signedValue_false, BitVec.ofInt_natCast, BitVec.toNat_ofNat, Nat.mod_eq_of_lt hc]
    rw [hpos, signedValue_false]
    simp only [Nat.add_sub_cancel, ne_eq, decide_eq_false_iff_not, BitVec.toNat_zero]
    omega
  · obtain rfl | h0 := Nat.eq_zero_or_pos c
    · simp
    · have hneg : (BitVec.ofInt (w + 1) (signedValue true c)).toNat = 2 * 2 ^ w - c := by
        rw [signedValue_true, BitVec.ofInt_neg, BitVec.ofInt_natCast, BitVec.toNat_neg, BitVec.toNat_ofNat,
          Nat.mod_eq_of_lt hc, Nat.pow_succ', Nat.mod_eq_of_lt (by omega)]
      rw [hneg, signedValue_true]
      simp only [Nat.add_sub_cancel, ne_eq, decide_eq_true_eq, BitVec.toNat_zero]
      omega

/-- The end of a signed path, with the check for a carry out of the magnitude (R87, R89). -/
theorem settleSigned_ofNat {w : Nat} (m : RoundingMode) (sign tie inexact : Bool) (n : Nat) :
    (if 2 ^ (w + 1) ≤ n then .invalid else settleSigned m sign tie inexact (BitVec.ofNat (w + 1) n)) =
      settleWithin (-2 ^ w) (2 ^ w) m inexact (signedValue sign (tieCleared m tie n)) := by
  have hc := tieCleared_lt_iff (w := w) m tie n
  unfold settleWithin
  by_cases hn : n < 2 ^ (w + 1)
  · have hz : (if sign = true then -BitVec.ofNat (w + 1) (tieCleared m tie n)
        else BitVec.ofNat (w + 1) (tieCleared m tie n)) =
        BitVec.ofInt (w + 1) (signedValue sign (tieCleared m tie n)) := by
      cases sign <;> simp [BitVec.ofInt_neg]
    rw [if_neg (by omega), settleSigned, clearTie_ofNat m tie hn]
    simp only [hz, sign_mismatch_iff sign (hc.mpr hn), ite_not]
  · have hpow : ((2 ^ (w + 1) : Nat) : Int) = 2 * 2 ^ w := by push_cast; ring
    have hpos : (0 : Int) < 2 ^ w := by positivity
    rw [if_pos (by omega), if_neg]
    cases sign
    · rw [signedValue_false]; omega
    · rw [signedValue_true]; omega

/-! ## Step 1 of the unsigned paths -/

/-- A plan carried out on ±(k + r/(2h)) (R86, R88). -/
def UnsignedPlan.run (w : Nat) (m : RoundingMode) (sign : Bool) (k r h : Nat) : UnsignedPlan → Rounded w
  | .returnZero => .value 0#w false
  | .invalid => .invalid
  | .add i =>
    if 2 ^ w ≤ k + i.carry r h then .invalid
    else settleUnsigned m sign (r == h) (r != 0) (BitVec.ofNat w (k + i.carry r h))

/-- The plan is to add what a signed path adds, except where the outcome is known: zero, or below zero. -/
theorem unsignedPlan_cases (m : RoundingMode) (sign zero : Bool) :
    unsignedPlan m sign zero = .add (signedIncrement .full m sign) ∨
    (unsignedPlan m sign zero = .returnZero ∧ zero = true) ∨
    (unsignedPlan m sign zero = .invalid ∧ zero = false ∧ sign = true ∧ m ≠ .nearestEven ∧
      signedIncrement .full m sign = .full) := by
  cases sign
  · exact .inl (by cases m <;> rfl)
  · cases m
    case nearestEven | nearestMaxMagnitude => exact .inl rfl
    case towardZero | towardPositive =>
      cases zero
      · exact .inl rfl
      · exact .inr (.inl ⟨rfl, rfl⟩)
    case towardNegative | odd =>
      cases zero
      · exact .inr (.inr ⟨rfl, rfl, rfl, by decide, rfl⟩)
      · exact .inr (.inl ⟨rfl, rfl⟩)

theorem run_unsignedPlan {w : Nat} (m : RoundingMode) (sign : Bool) (k r : Nat) {h : Nat} (hh : 0 < h)
    {zero : Bool} (hzero : zero = true ↔ k = 0 ∧ r = 0) :
    (unsignedPlan m sign zero).run (w + 1) m sign k r h =
      settleWithin 0 (2 ^ (w + 1)) m (r != 0) (settledValue .full m sign k r h) := by
  rw [settledValue]
  rcases unsignedPlan_cases m sign zero with hp | ⟨hp, hz⟩ | ⟨hp, hz, rfl, hm, hi⟩
  · rw [hp]
    exact settleUnsigned_ofNat m sign _ _ _
  · obtain ⟨rfl, rfl⟩ := hzero.mp hz
    have hvalue : signedValue sign 0 = 0 := by cases sign <;> rfl
    have hpos : (0 : Int) < 2 ^ (w + 1) := by positivity
    rw [hp, settledMagnitude_exact m _ 0 hh, hvalue, settleWithin, if_pos ⟨le_rfl, hpos⟩]
    simp [UnsignedPlan.run, forceOdd]
  · have hnonzero : ¬(k = 0 ∧ r = 0) := fun h0 => by simp [hzero.mpr h0] at hz
    have hmagnitude : 0 < settledMagnitude m .full k r h := by
      simp only [settledMagnitude, tieCleared, hm, false_and, if_false, Increment.carry]
      split_ifs <;> omega
    rw [hp, hi, settleWithin, signedValue_true, if_neg (by omega)]
    rfl

/-! ## The four roundings -/

theorem div_add_amount32 (n : Nat) (i : Increment) :
    (n + i.amount32) / 2 ^ 12 = n / 2 ^ 12 + i.carry (n % 2 ^ 12) (2 ^ 11) := by
  cases i <;> simp only [Increment.amount32, Increment.carry]
  case none => rfl
  case half | full => split_ifs <;> omega

theorem amount64_eq_carry (extra : Word64) (i : Increment) : i.amount64 extra = i.carry extra.toNat (2 ^ 63) := by
  cases i
  case full => simp [Increment.amount64, Increment.carry, ← BitVec.toNat_inj]
  case none | half => rfl

/-- Bits 44 and up of the sum are bits 32 and up of the magnitude (R86, R87, step 2). -/
theorem carry_out32_iff (t : Nat) : 2 ^ 44 ≤ t ↔ 2 ^ 32 ≤ t / 2 ^ 12 := by omega

theorem beq_eq_toNat_beq {w : Nat} (x y : BitVec w) : (x == y) = (x.toNat == y.toNat) := by
  rw [Bool.eq_iff_iff, beq_iff_eq, beq_iff_eq, BitVec.toNat_inj]

theorem roundBits_tie (sig : Word64) : (roundBits sig == 0x800#12) = (sig.toNat % 2 ^ 12 == 2 ^ 11) := by
  rw [beq_eq_toNat_beq, roundBits_toNat]
  rfl

theorem roundBits_inexact (sig : Word64) : (roundBits sig != 0#12) = (sig.toNat % 2 ^ 12 != 0) := by
  rw [bne, beq_eq_toNat_beq, roundBits_toNat]
  rfl

theorem extra_tie (extra : Word64) : (extra == 0x8000000000000000#64) = (extra.toNat == 2 ^ 63) :=
  beq_eq_toNat_beq ..

theorem extra_inexact (extra : Word64) : (extra != 0#64) = (extra.toNat != 0) :=
  congrArg not (beq_eq_toNat_beq ..)

theorem roundU32_eq (m : RoundingMode) (sign : Bool) (sig : Word64) :
    roundU32 m sign sig = settleWithin 0 (2 ^ 32) m (sig.toNat % 2 ^ 12 != 0)
      (settledValue .full m sign (sig.toNat / 2 ^ 12) (sig.toNat % 2 ^ 12) (2 ^ 11)) := by
  have hzero : (sig == 0#64) = true ↔ sig.toNat / 2 ^ 12 = 0 ∧ sig.toNat % 2 ^ 12 = 0 := by
    rw [beq_iff_eq, ← BitVec.toNat_inj, BitVec.toNat_ofNat]
    omega
  rw [← run_unsignedPlan (w := 31) m sign _ _ (by decide) hzero, roundU32]
  cases unsignedPlan m sign (sig == 0#64) with
  | returnZero => rfl
  | invalid => rfl
  | add i => simp only [UnsignedPlan.run, carry_out32_iff, div_add_amount32, roundBits_tie, roundBits_inexact]

theorem roundI32_eq (oddNeg : OddNegIncrement) (m : RoundingMode) (sign : Bool) (sig : Word64) :
    roundI32 oddNeg m sign sig = settleWithin (-2 ^ 31) (2 ^ 31) m (sig.toNat % 2 ^ 12 != 0)
      (settledValue oddNeg m sign (sig.toNat / 2 ^ 12) (sig.toNat % 2 ^ 12) (2 ^ 11)) := by
  simp only [roundI32, carry_out32_iff, div_add_amount32, roundBits_tie, roundBits_inexact]
  exact settleSigned_ofNat (w := 31) m sign _ _ _

theorem roundU64_eq (m : RoundingMode) (sign : Bool) (sig extra : Word64) :
    roundU64 m sign sig extra = settleWithin 0 (2 ^ 64) m (extra.toNat != 0)
      (settledValue .full m sign sig.toNat extra.toNat (2 ^ 63)) := by
  have hzero : (sig == 0#64 && extra == 0#64) = true ↔ sig.toNat = 0 ∧ extra.toNat = 0 := by
    simp [← BitVec.toNat_inj]
  rw [← run_unsignedPlan (w := 63) m sign _ _ (by decide) hzero, roundU64]
  cases unsignedPlan m sign (sig == 0#64 && extra == 0#64) with
  | returnZero => rfl
  | invalid => rfl
  | add i => simp only [UnsignedPlan.run, amount64_eq_carry, extra_tie, extra_inexact]

theorem roundI64_eq (oddNeg : OddNegIncrement) (m : RoundingMode) (sign : Bool) (sig extra : Word64) :
    roundI64 oddNeg m sign sig extra = settleWithin (-2 ^ 63) (2 ^ 63) m (extra.toNat != 0)
      (settledValue oddNeg m sign sig.toNat extra.toNat (2 ^ 63)) := by
  simp only [roundI64, amount64_eq_carry, extra_tie, extra_inexact]
  exact settleSigned_ofNat (w := 63) m sign _ _ _

end Sys2Proof.Machine
end

section
/-!
The obligations about the rounding commands (43_rounding). Each command is one `settleRounding` of one
`settleWithin`; the exactness statements compare what that ends on with `roundExact`, and the others are read off
the same equations.
-/

namespace Sys2Proof.Machine

open Sys2Proof.Safety

/-! ## The response of a rounding command -/

section
variable {w : Nat} (s : State) (ex sg : Bool)

theorem settleRounding_invalid (pconst : Params → Policy → ConstKind → BitVec w) :
    settleRounding s ex (pconst s.params s.policy (overflowKind sg)) .invalid =
      .next { s with status := .ok, r := sentinel pconst s sg, flags := s.flags ||| 0x10#5 } :=
  settleRounding_eq ..

theorem settleRounding_value (sentinel z : BitVec w) {inexact : Bool} {p : Prop} [Decidable p]
    (hp : inexact = true ↔ p) : settleRounding s ex sentinel (.value z inexact) =
      .next { s with status := .ok, r := zext z, flags := flagsAfterInRange s.flags p ex } := by
  rw [settleRounding_eq]
  simp only [flagsAfterInRange, ← hp, Bool.and_eq_true]
  rfl

theorem zext_ofInt (hw : w ≤ 256) (z : Int) : zext (BitVec.ofInt w z) = BitVec.ofInt 256 (z % 2 ^ w) := by
  have hpow : (2 ^ w : Int) ≤ 2 ^ 256 := pow_le_pow_right₀ (by decide) hw
  have hpos : (0 : Int) < 2 ^ w := by positivity
  have hlt := Int.emod_lt_of_pos z hpos
  apply BitVec.eq_of_toNat_eq
  rw [zext_toNat _ hw, BitVec.toNat_ofInt, BitVec.toNat_ofInt]
  push_cast
  rw [Int.emod_eq_of_lt (Int.emod_nonneg z hpos.ne') (by omega)]

/-- A command that ends on q answers q if q is in range, and the sentinel with Invalid if not (R85, R90). -/
theorem answers_of_settleWithin {pconst : Params → Policy → ConstKind → BitVec (w + 1)} {lo hi z q : Int}
    {m : RoundingMode} {inexact : Bool} {p : Prop} [Decidable p] {o : Result}
    (ho : o = settleRounding s ex (pconst s.params s.policy (overflowKind sg)) (settleWithin lo hi m inexact z))
    (hw : w + 1 ≤ 256) (hlo : 2 ∣ lo) (hhi : 2 ∣ hi) (hq : q = oddForced m inexact z)
    (hp : inexact = true ↔ p) :
    (lo ≤ q ∧ q < hi →
      o = .next
        { s with
          status := .ok, r := BitVec.ofInt 256 (q % 2 ^ (w + 1))
          flags := flagsAfterInRange s.flags p ex }) ∧
    (¬(lo ≤ q ∧ q < hi) →
      o = .next { s with status := .ok, r := sentinel pconst s sg, flags := s.flags ||| 0x10#5 }) := by
  subst hq ho
  rw [oddForced_mem_iff m inexact hlo hhi, settleWithin]
  refine ⟨fun hin => ?_, fun hout => ?_⟩
  · rw [if_pos hin, settleRounding_value s ex _ _ hp, forceOdd_ofInt, zext_ofInt hw]
  · rw [if_neg hout, settleRounding_invalid]

end

theorem encodeRounding_toNat (o : Opcode) (rm : RmField) (ex sg : Bool) :
    (encodeRounding o rm ex sg).toNat = roundingWord o.code.toNat rm ex sg := by
  have hrm : rm.code.toNat = rmNumber rm := by
    cases rm with
    | mode m => cases m <;> rfl
    | dyn => rfl
  simp [encodeRounding, packWord_toNat, roundingWord, hrm]

/-! ## The four commands -/

theorem u64_lt (x : Bus) : u64 x < 2 ^ 64 := Nat.mod_lt _ (by decide)

section
variable (rm : RmField) (ex sg : Bool) (s : State)

theorem exec_rndu32_eq : exec (.rndu32 rm ex sg) s =
    settleRounding s ex (pconstU32 s.params s.policy (overflowKind sg))
      (settleWithin 0 (2 ^ 32) (modeInForce rm s.rm) (u64 s.a % 2 ^ 12 != 0)
        (settledValue .full (modeInForce rm s.rm) sg (u64 s.a / 2 ^ 12) (u64 s.a % 2 ^ 12) (2 ^ 11))) := by
  rw [← effectiveMode_eq, u64, ← a64_toNat, ← roundU32_eq]
  rfl

theorem exec_rndi32_eq : exec (.rndi32 rm ex sg) s =
    settleRounding s ex (pconstI32 s.params s.policy (overflowKind sg))
      (settleWithin (-2 ^ 31) (2 ^ 31) (modeInForce rm s.rm) (u64 s.a % 2 ^ 12 != 0)
        (settledValue s.params.oddNegIncrement (modeInForce rm s.rm) sg (u64 s.a / 2 ^ 12) (u64 s.a % 2 ^ 12)
          (2 ^ 11))) := by
  rw [← effectiveMode_eq, u64, ← a64_toNat, ← roundI32_eq]
  rfl

theorem exec_rndu64_eq : exec (.rndu64 rm ex sg) s =
    settleRounding s ex (pconstU64 s.params s.policy (overflowKind sg))
      (settleWithin 0 (2 ^ 64) (modeInForce rm s.rm) (u64 s.b != 0)
        (settledValue .full (modeInForce rm s.rm) sg (u64 s.a) (u64 s.b) (2 ^ 63))) := by
  rw [← effectiveMode_eq, u64, u64, ← a64_toNat, ← b64_toNat, ← roundU64_eq]
  rfl

theorem exec_rndi64_eq : exec (.rndi64 rm ex sg) s =
    settleRounding s ex (pconstI64 s.params s.policy (overflowKind sg))
      (settleWithin (-2 ^ 63) (2 ^ 63) (modeInForce rm s.rm) (u64 s.b != 0)
        (settledValue s.params.oddNegIncrement (modeInForce rm s.rm) sg (u64 s.a) (u64 s.b) (2 ^ 63))) := by
  rw [← effectiveMode_eq, u64, u64, ← a64_toNat, ← b64_toNat, ← roundI64_eq]
  rfl

end

/-! ## Exact rounding -/

section
variable (m : RoundingMode) (sign : Bool) (sig : Nat)

/-- The value of the 32-bit paths (R84). -/
theorem roundExact_sig : roundExact m (signedValue sign sig) (2 ^ 12) =
    oddForced m (sig % 2 ^ 12 != 0) (settledValue .full m sign (sig / 2 ^ 12) (sig % 2 ^ 12) (2 ^ 11)) :=
  roundExact_signedValue m sign sig rfl (by decide)

theorem roundBits_iff_discards (d : Nat) : (sig % d != 0) = true ↔ Discards (signedValue sign sig) d := by
  rw [discards_signedValue, bne_iff_ne]

variable {extra : Nat} (he : extra < 2 ^ 64)
include he

/-- The value of the 64-bit paths (R84). -/
theorem roundExact_sig_extra : roundExact m (signedValue sign (sig * 2 ^ 64 + extra)) (2 ^ 64) =
    oddForced m (extra != 0) (settledValue .full m sign sig extra (2 ^ 63)) := by
  have hdiv : (sig * 2 ^ 64 + extra) / 2 ^ 64 = sig := by omega
  have hmod : (sig * 2 ^ 64 + extra) % 2 ^ 64 = extra := by omega
  rw [roundExact_signedValue m sign _ (d := 2 ^ 64) (h := 2 ^ 63) rfl (by decide), hdiv, hmod]

theorem extra_iff_discards :
    (extra != 0) = true ↔ Discards (signedValue sign (sig * 2 ^ 64 + extra)) (2 ^ 64) := by
  rw [← roundBits_iff_discards, Nat.mul_add_mod_self_right, Nat.mod_eq_of_lt he]

end

/-- Settles O41: RNDU32 ends on the exact rounding (`roundExact_sig`), and a number in range is its own pattern. -/
theorem roundToU32IsExact : Obligations.RoundToU32IsExact := by
  intro rm ex sg s
  extract_lets v q
  obtain ⟨hin, hout⟩ := answers_of_settleWithin s ex sg (exec_rndu32_eq rm ex sg s) (by decide) (by decide)
    (by decide) (roundExact_sig _ sg _) (roundBits_iff_discards sg _ _)
  refine ⟨encodeRounding_toNat .rndu32 rm ex sg, fun hq => ?_, hout⟩
  obtain ⟨hlo, hhi⟩ := hq
  rw [hin ⟨hlo, hhi⟩, Int.emod_eq_of_lt hlo hhi]

/-- Settles O42: outside the case left to O45, RNDI32 adds the increment of Full and ends on the exact rounding. -/
theorem roundToI32IsExact : Obligations.RoundToI32IsExact := by
  intro rm ex sg s v q hodd
  have hexec := exec_rndi32_eq rm ex sg s
  rw [settledValue_eq_full hodd] at hexec
  exact ⟨encodeRounding_toNat .rndi32 rm ex sg, answers_of_settleWithin s ex sg hexec (by decide) (by decide)
    (by decide) (roundExact_sig _ sg _) (roundBits_iff_discards sg _ _)⟩

/-- Settles O43: as O41, the fraction being the extra word (`roundExact_sig_extra`). -/
theorem roundToU64IsExact : Obligations.RoundToU64IsExact := by
  intro rm ex sg s
  extract_lets v q
  obtain ⟨hin, hout⟩ := answers_of_settleWithin s ex sg (exec_rndu64_eq rm ex sg s) (by decide) (by decide)
    (by decide) (roundExact_sig_extra _ sg _ (u64_lt s.b)) (extra_iff_discards sg _ (u64_lt s.b))
  refine ⟨encodeRounding_toNat .rndu64 rm ex sg, fun hq => ?_, hout⟩
  obtain ⟨hlo, hhi⟩ := hq
  rw [hin ⟨hlo, hhi⟩, Int.emod_eq_of_lt hlo hhi]

/-- Settles O44: as O42, the fraction being the extra word. -/
theorem roundToI64IsExact : Obligations.RoundToI64IsExact := by
  intro rm ex sg s v q hodd
  have hexec := exec_rndi64_eq rm ex sg s
  rw [settledValue_eq_full hodd] at hexec
  exact ⟨encodeRounding_toNat .rndi64 rm ex sg, answers_of_settleWithin s ex sg hexec (by decide) (by decide)
    (by decide) (roundExact_sig_extra _ sg _ (u64_lt s.b)) (extra_iff_discards sg _ (u64_lt s.b))⟩

/-! ## Odd of a negative value with ODD_NEG_INCREMENT = Zero -/

/-- Nothing is added to the truncated magnitude k, so the range check is that of -k. -/
theorem answers_of_oddZero {w k r h : Nat} {s : State} {ex : Bool}
    {pconst : Params → Policy → ConstKind → BitVec (w + 1)} {p : Prop} [Decidable p] {o : Result}
    (ho : o = settleRounding s ex (pconst s.params s.policy (overflowKind true))
      (settleWithin (-2 ^ w) (2 ^ w) .odd (r != 0) (settledValue .zero .odd true k r h)))
    (hw : w + 1 ≤ 256) (hp : (r != 0) = true ↔ p) :
    (k ≤ 2 ^ w →
      o = .next
        { s with
          status := .ok, r := BitVec.ofNat 256 (oddZeroPattern (w + 1) k p)
          flags := flagsAfterInRange s.flags p ex }) ∧
    (2 ^ w < k →
      o = .next { s with status := .ok, r := sentinel pconst s true, flags := s.flags ||| 0x10#5 }) := by
  have hk : settledValue .zero .odd true k r h = -k := rfl
  have hpos : (0 : Int) < 2 ^ w := by positivity
  have hpow : ((2 ^ w : Nat) : Int) = 2 ^ w := by push_cast; rfl
  rw [ho, hk, settleWithin]
  refine ⟨fun hle => ?_, fun hlt => ?_⟩
  · have hneg : (BitVec.ofInt (w + 1) (-k)).toNat = (2 ^ (w + 1) - k) % 2 ^ (w + 1) := by
      have hklt : k < 2 ^ (w + 1) := by rw [Nat.pow_succ]; omega
      rw [BitVec.ofInt_neg, BitVec.ofInt_natCast, BitVec.toNat_neg, BitVec.toNat_ofNat, Nat.mod_eq_of_lt hklt]
    have hr : (forceOdd .odd (r != 0) (BitVec.ofInt (w + 1) (-k))).toNat = oddZeroPattern (w + 1) k p := by
      simp only [forceOdd_toNat, hneg, hp, true_and, oddZeroPattern, or_one_eq]
    rw [if_pos (by omega), settleRounding_value s ex _ _ hp, ← hr, ← zext_toNat _ hw, BitVec.ofNat_toNat,
      BitVec.setWidth_eq]
  · rw [if_neg (by omega), settleRounding_invalid]

/-- Settles O45: both widths are `answers_of_oddZero`. -/
theorem signedOddWithZeroIncrement : Obligations.SignedOddWithZeroIncrement := by
  intro rm ex s hzero hodd
  have h32 := exec_rndi32_eq rm ex true s
  have h64 := exec_rndi64_eq rm ex true s
  rw [hzero, hodd] at h32 h64
  obtain ⟨hin32, hout32⟩ := answers_of_oddZero h32 (by decide) bne_iff_ne
  obtain ⟨hin64, hout64⟩ := answers_of_oddZero h64 (by decide) bne_iff_ne
  exact ⟨hin32, hout32, hin64, hout64⟩

/-! ## Rounding to odd first (R91) -/

/-- The significand with the extra word jammed into it rounds as the two together: over the 12 low bits the
fraction stays on its side of zero and of one half. -/
theorem roundExact_jammed (m : RoundingMode) (sign : Bool) (sig : Nat) {extra : Nat} (he : extra < 2 ^ 64) :
    roundExact m (signedValue sign (jammed sig extra)) (2 ^ 12) =
      roundExact m (signedValue sign (sig * 2 ^ 64 + extra)) (2 ^ 76) ∧
    (Discards (signedValue sign (jammed sig extra)) (2 ^ 12) ↔
      Discards (signedValue sign (sig * 2 ^ 64 + extra)) (2 ^ 76)) := by
  obtain ⟨x, hx⟩ : ∃ x, x = jammed sig extra := ⟨_, rfl⟩
  obtain ⟨n, hn⟩ : ∃ n, n = sig * 2 ^ 64 + extra := ⟨_, rfl⟩
  rw [← hx, ← hn]
  obtain ⟨hk, h0, hlt, hgt⟩ : n / 2 ^ 76 = x / 2 ^ 12 ∧ (x % 2 ^ 12 = 0 ↔ n % 2 ^ 76 = 0) ∧
      (x % 2 ^ 12 < 2 ^ 11 ↔ n % 2 ^ 76 < 2 ^ 75) ∧ (2 ^ 11 < x % 2 ^ 12 ↔ 2 ^ 75 < n % 2 ^ 76) := by
    rw [jammed, or_one_eq] at hx
    split_ifs at hx <;> omega
  have hbits : (x % 2 ^ 12 != 0) = (n % 2 ^ 76 != 0) := by
    rw [Bool.eq_iff_iff, bne_iff_ne, bne_iff_ne, ne_eq, ne_eq, h0]
  constructor
  · rw [roundExact_sig, roundExact_signedValue m sign n (d := 2 ^ 76) (h := 2 ^ 75) rfl (by decide), hk, hbits,
      settledValue, settledValue, settledMagnitude_congr m _ _ h0 hlt hgt]
  · rw [discards_signedValue, discards_signedValue, ne_eq, ne_eq, h0]

theorem jammed_lt {e : Nat} (x : Nat) (he : e < 2 ^ 64) : jammed e x < 2 ^ 64 := by
  rw [jammed, or_one_eq]
  split_ifs <;> omega

/-- Rounding a nonnegative value to odd is jamming its fraction into bit 0. -/
theorem roundExact_odd (sig : Nat) {extra : Nat} (he : extra < 2 ^ 64) :
    roundExact .odd (signedValue false (sig * 2 ^ 64 + extra)) (2 ^ 64) = jammed sig extra := by
  rw [roundExact_sig_extra _ _ _ he, show settledValue .full .odd false sig extra (2 ^ 63) = sig from rfl]
  by_cases h0 : extra = 0 <;> simp [oddForced, jammed, or_one_eq, h0]

theorem exec_rndu64_odd (s : State) : exec (.rndu64 (.mode .odd) false false) s =
    .next { s with status := .ok, r := BitVec.ofNat 256 (jammed (u64 s.a) (u64 s.b)) } := by
  obtain ⟨-, hin, -⟩ := roundToU64IsExact (.mode .odd) false false s
  have hlt := jammed_lt (u64 s.b) (u64_lt s.a)
  rw [modeInForce, roundExact_odd _ (u64_lt s.b)] at hin
  rw [hin ⟨by omega, by omega⟩]
  simp [flagsAfterInRange]

theorem flagsAfterInRange_congr {p p' : Prop} [Decidable p] [Decidable p'] (h : p ↔ p') (f : FlagSet) (ex : Bool) :
    flagsAfterInRange f p ex = flagsAfterInRange f p' ex := by
  simp only [flagsAfterInRange, h]

/-- Settles O46: RNDU64.ODD leaves the jammed significand on R, whose rounding O41 and O42 give, and it rounds as
the exact value does (`roundExact_jammed`). -/
theorem roundToOddAvoidsDoubleRounding : Obligations.RoundToOddAvoidsDoubleRounding := by
  intro m ex sg s v q
  obtain ⟨hround, hdiscards⟩ := roundExact_jammed m sg (u64 s.a) (u64_lt s.b)
  have hsig : u64 (BitVec.ofNat 256 (jammed (u64 s.a) (u64 s.b))) = jammed (u64 s.a) (u64 s.b) := by
    have hlt := jammed_lt (u64 s.b) (u64_lt s.a)
    rw [u64, BitVec.toNat_ofNat]
    omega
  rw [← hsig] at hround hdiscards
  have hflags := flagsAfterInRange_congr hdiscards s.flags ex
  refine ⟨_, exec_rndu64_odd s, rfl, ?_⟩
  generalize BitVec.ofNat 256 (jammed (u64 s.a) (u64 s.b)) = R at hround hflags ⊢
  obtain ⟨-, hU⟩ := roundToU32IsExact (.mode m) ex sg { s with status := .ok, a := R, r := R }
  have hI := roundToI32IsExact (.mode m) ex sg { s with status := .ok, a := R, r := R }
  simp only [modeInForce, hround, hflags] at hU hI
  obtain ⟨hinU, houtU⟩ := hU
  refine ⟨hinU, houtU, fun hodd => ?_, fun hodd => ?_⟩
  · obtain ⟨-, hinI, -⟩ := hI hodd
    exact hinI
  · obtain ⟨-, -, houtI⟩ := hI hodd
    exact houtI

/-! ## What a rounding command reads -/

/-- Neither the response nor the bits merged into FLAGS depend on the state (R92). -/
theorem settleRounding_uniform {w : Nat} (ex : Bool) (sentinel : BitVec w) (q : Rounded w) :
    ∃ (R : Bus) (m : FlagSet), ∀ s : State,
      settleRounding s ex sentinel q = .next { s with status := .ok, r := R, flags := s.flags ||| m } := by
  cases q with
  | invalid => exact ⟨_, _, fun s => settleRounding_eq s ex sentinel .invalid⟩
  | value z inexact =>
    refine ⟨zext z, if inexact && ex then flagInexact else 0#5, fun s => ?_⟩
    rw [settleRounding_eq]
    cases hraise : inexact && ex <;> simp [hraise]

theorem settleRounding_both {w : Nat} (s s' : State) (ex : Bool) {c c' : BitVec w} {q q' : Rounded w}
    (hc : c = c') (hq : q = q') :
    ∃ (R : Bus) (m : FlagSet),
      settleRounding s ex c q = .next { s with status := .ok, r := R, flags := s.flags ||| m } ∧
      settleRounding s' ex c' q' = .next { s' with status := .ok, r := R, flags := s'.flags ||| m } := by
  subst hc hq
  obtain ⟨R, m, h⟩ := settleRounding_uniform ex c q
  exact ⟨R, m, h s, h s'⟩

theorem effectiveMode_congr {rm : RmField} {s s' : State} (h : rm = .dyn → s.rm = s'.rm) :
    s.effectiveMode rm = s'.effectiveMode rm := by
  cases rm with
  | mode m => rfl
  | dyn => exact h rfl

/-- Settles O47: the two states give `settleRounding` the same sentinel and the same rounding. -/
theorem roundingDependsOnlyOnItsInputs : Obligations.RoundingDependsOnlyOnItsInputs := by
  intro rm ex sg s s' ha hpolicy hparams hrm
  have hmode := effectiveMode_congr hrm
  have ha64 : s.a64 = s'.a64 := lowBits_eq ha
  have hsentinel {w : Nat} (pconst : Params → Policy → ConstKind → BitVec w) :
      pconst s.params s.policy (overflowKind sg) = pconst s'.params s'.policy (overflowKind sg) := by
    rw [hpolicy, hparams]
  refine ⟨settleRounding_both s s' ex (hsentinel pconstU32) ?_, settleRounding_both s s' ex (hsentinel pconstI32) ?_,
    fun hb => ?_⟩
  · rw [hmode, ha64]
  · rw [hmode, ha64, hparams]
  · have hb64 : s.b64 = s'.b64 := lowBits_eq hb
    refine ⟨settleRounding_both s s' ex (hsentinel pconstU64) ?_,
      settleRounding_both s s' ex (hsentinel pconstI64) ?_⟩
    · rw [hmode, ha64, hb64]
    · rw [hmode, ha64, hb64, hparams]

/-- Settles O48: after WRRM m the RM register holds m, and DYN selects the mode in RM. -/
theorem dynamicModeIsTheModeJustWritten : Obligations.DynamicModeIsTheModeJustWritten := by
  intro m ex sg a b s
  exact ⟨{ s with r := 0#256, status := .ok, rm := m }, rfl, rfl, rfl, rfl, rfl⟩

end Sys2Proof.Machine
end

section
/-!
The words of the commands that use SEL (30_encoding R45, R49), and the words with SEL out of its row's range.
-/

namespace Sys2Proof

open Sys2Proof.Laws Sys2Proof.Safety

theorem encodeSel_toNat (o : Opcode) (sel : BitVec 3) :
    (encodeSel o sel).toNat = o.code.toNat + 2 ^ 13 * sel.toNat := by simp [encodeSel, packWord_toNat]

theorem encodeSel_kind_toNat (o : Opcode) (k : ConstKind) :
    (encodeSel o k.code).toNat = o.code.toNat + 2 ^ 13 * kindNumber k := by
  rw [encodeSel_toNat]
  cases k <;> rfl

theorem encodeSel_width_toNat (o : Opcode) (w : NanWidth) :
    (encodeSel o w.code).toNat = o.code.toNat + 2 ^ 13 * widthNumber w := by
  rw [encodeSel_toNat]
  cases w <;> rfl

/-- A word with the header of a row is decoded by that row. -/
theorem decode_of_headerOf {o : Opcode} {w : Command} (h : HeaderOf o w) : decode w = o.operands w := by
  obtain ⟨hopc, hrsv, huses⟩ := h
  simp [decode, hopc, hrsv, huses]

theorem undecodable_of_maxSel_lt {o : Opcode} {sel : Nat} (hu : o.uses.sel = true) (hmax : o.maxSel < sel)
    (h8 : sel < 8) : Undecodable (o.code.toNat + 2 ^ 13 * sel) := by
  have hsel : (BitVec.ofNat 3 sel).toNat = sel := Nat.mod_eq_of_lt h8
  have hheader := headerOf_select o (BitVec.ofNat 3 sel) hu
  rw [← hsel, ← encodeSel_toNat, Undecodable, BitVec.ofNat_toNat, BitVec.setWidth_eq, decode_of_headerOf hheader]
  cases hi : o.operands (encodeSel o (BitVec.ofNat 3 sel)) with
  | error c => exact ⟨c, rfl⟩
  | ok i =>
    obtain ⟨-, hle, -⟩ := (exists_operands_iff hheader).mp ⟨i, hi⟩
    rw [encodeSel, fieldSel_packWord] at hle
    omega

end Sys2Proof
end

section
/-!
The obligations about the constants of the policy (44_policy R94 to R103, R109): under the default parameters
each table of the machine is the table of the spec, entry by entry.
-/

namespace Sys2Proof.Machine

open Sys2Proof.Safety

/-! ## The tables under the default parameters -/

section
variable (policy : Policy) (k : ConstKind) (w : NanWidth)

theorem pconstU32_default : (pconstU32 .default policy k).toNat = tableU32 policy k := by
  cases policy <;> cases k <;> rfl

theorem pconstU64_default : (pconstU64 .default policy k).toNat = tableU64 policy k := by
  cases policy <;> cases k <;> rfl

theorem pconstI32_default : (pconstI32 .default policy k).toNat =
    (tableI32 policy k).getD (armFromNaNValue 32 Config.armI32FromNaN).toNat := by
  cases policy <;> cases k <;> rfl

theorem pconstI64_default : (pconstI64 .default policy k).toNat =
    (tableI64 policy k).getD (armFromNaNValue 64 Config.armI64FromNaN).toNat := by
  cases policy <;> cases k <;> rfl

theorem defaultNaN_default : (defaultNaN .default policy w).toNat = tableNaN policy w := by
  cases policy <;> cases w <;> rfl

/-- The ARM column of R96 needs the ARM parameters only. -/
theorem defaultNaN_of_arm_default {p : Params} (h : p.arm = .default) :
    (defaultNaN p .armDefaultNaN w).toNat = tableNaN .armDefaultNaN w := by
  rw [← defaultNaN_default]
  cases w <;> simp only [defaultNaN, Policy.isArm, h, Params.default]

theorem defaultNaN_lt (p : Params) : (defaultNaN p policy w).toNat < 2 ^ (nanRow w).width := by
  have hlow {n : Nat} (x : BitVec n) (hn : n ≤ 128) : (x.setWidth 128).toNat < 2 ^ n := by
    rw [BitVec.toNat_setWidth_of_le hn]
    exact x.isLt
  cases w
  case f128 => exact BitVec.isLt _
  all_goals cases policy <;> exact hlow _ (by decide)

end

/-! ## The constants -/

/-- Settles O49: the answers are by definition, the numbers those of the two tables. -/
theorem unsignedConversionConstants : Obligations.UnsignedConversionConstants := by
  refine ⟨fun k s => ⟨encodeSel_kind_toNat .pconstu32 k, encodeSel_kind_toNat .pconstu64 k, rfl, fun hp => ?_, rfl,
    fun hp => ?_⟩, fun sel h3 h8 => ⟨undecodable_of_maxSel_lt (o := .pconstu32) rfl h3 h8,
    undecodable_of_maxSel_lt (o := .pconstu64) rfl h3 h8⟩⟩
  · rw [hp, pconstU32_default]
  · rw [hp, pconstU64_default]

/-- Settles O50: the OPEN entries are the free values of Config, one of three patterns each. -/
theorem signedConversionConstants : Obligations.SignedConversionConstants := by
  refine ⟨⟨(armFromNaNValue 32 Config.armI32FromNaN).toNat, (armFromNaNValue 64 Config.armI64FromNaN).toNat, ?_, ?_,
    fun k s => ⟨encodeSel_kind_toNat .pconsti32 k, encodeSel_kind_toNat .pconsti64 k, rfl, fun hp => ?_, rfl,
      fun hp => ?_⟩⟩, fun sel h3 h8 => ⟨undecodable_of_maxSel_lt (o := .pconsti32) rfl h3 h8,
    undecodable_of_maxSel_lt (o := .pconsti64) rfl h3 h8⟩⟩
  · cases Config.armI32FromNaN <;> decide
  · cases Config.armI64FromNaN <;> decide
  · rw [hp, pconstI32_default]
  · rw [hp, pconstI64_default]

/-- Settles O51: DEFNAN answers the entry of the table, which its width bounds (`defaultNaN_lt`). -/
theorem defaultNaNByWidth : Obligations.DefaultNaNByWidth := by
  refine ⟨fun w s => ⟨encodeSel_width_toNat .defnan w, rfl, defaultNaN_lt s.policy w s.params, fun hp => ?_⟩,
    fun sel h5 h8 => undecodable_of_maxSel_lt (o := .defnan) rfl h5 h8⟩
  rw [hp, defaultNaN_default]

/-! ## RDPOL -/

theorem policyWord_default (policy : Policy) :
    (if tininess .default policy = .afterRounding then 4 else 0) + policyNumber policy = tablePolicyWord policy := by
  cases policy <;> rfl

/-- Settles O56: R is the tininess bit above the two bits of the policy code. -/
theorem policyReadBack : Obligations.PolicyReadBack := by
  intro s
  have hbit : (tininessBit (tininess s.params s.policy)).toNat * 2 ^ 2 =
      if tininess s.params s.policy = .afterRounding then 4 else 0 := by
    cases tininess s.params s.policy <;> rfl
  have hcode : s.policy.code.toNat = policyNumber s.policy := by cases s.policy <;> rfl
  have hR : (zext (tininessBit (tininess s.params s.policy) ++ s.policy.code)).toNat =
      (if tininess s.params s.policy = .afterRounding then 4 else 0) + policyNumber s.policy := by
    rw [zext_toNat _ (by decide), append_toNat, hbit, hcode]
  exact ⟨rfl, _, rfl, hR, fun hp => by rw [hR, hp, policyWord_default]⟩

end Sys2Proof.Machine
end

section
/-!
NaN propagation on numbers (44_policy R97, R104 to R108). What a selection of the machine answers is the formula
of the claims; and every selection quiets one of the operands, whose exponent field is all ones if an operand is a
NaN.
-/

namespace Sys2Proof.Machine

open Sys2Proof.Safety

/-! ## Operands and their fields (R97, R98) -/

theorem nanBits_lt (w : NanWidth) (x : Bus) : nanBits w x < 2 ^ (nanRow w).width :=
  Nat.mod_lt _ (Nat.two_pow_pos _)

theorem nanOperand_lt (w : NanWidth) (x : Bus) : (nanOperand w x).toNat < 2 ^ (nanRow w).width :=
  nanOperand_toNat w x ▸ nanBits_lt w x

/-- Where the row of a width puts its fields: the sign on top, the exponent below it, the quiet bit in the fraction. -/
theorem nanRow_layout (w : NanWidth) :
    (nanRow w).width - 1 = (nanRow w).expLo + (nanRow w).expBits ∧ (nanRow w).quietBit < (nanRow w).fracBits ∧
    (nanRow w).quietMask < 2 ^ (nanRow w).expLo ∧ (nanRow w).quietMask < 2 ^ (nanRow w).width ∧
    (nanRow w).quietMask.testBit (nanRow w).quietBit = true := by
  cases w <;> decide

/-- The exponent field of x is all ones. -/
def ExponentOnes (w : NanWidth) (x : Nat) : Prop :=
  x / 2 ^ (nanRow w).expLo % 2 ^ (nanRow w).expBits = 2 ^ (nanRow w).expBits - 1

theorem nan_of_signaling {w : NanWidth} {x : Nat} (h : SignalingPattern w x) : NaNPattern w x := h.1

theorem exponentOnes_of_nan {w : NanWidth} {x : Nat} (h : NaNPattern w x) : ExponentOnes w x := h.1

theorem exponent_eq_magnitude_div (w : NanWidth) (x : Nat) :
    x / 2 ^ (nanRow w).expLo % 2 ^ (nanRow w).expBits = magnitude w x / 2 ^ (nanRow w).expLo := by
  obtain ⟨hwidth, -⟩ := nanRow_layout w
  rw [magnitude, hwidth, Nat.pow_add, Nat.mod_mul_right_div_self]

/-- The exponent is the top of the magnitude, so above an exponent of all ones there are only such. -/
theorem ExponentOnes.of_magnitude_le {w : NanWidth} {x y : Nat} (hx : ExponentOnes w x)
    (h : magnitude w x ≤ magnitude w y) : ExponentOnes w y := by
  have hle : magnitude w x / 2 ^ (nanRow w).expLo ≤ magnitude w y / 2 ^ (nanRow w).expLo := Nat.div_le_div_right h
  have hlt : y / 2 ^ (nanRow w).expLo % 2 ^ (nanRow w).expBits < 2 ^ (nanRow w).expBits :=
    Nat.mod_lt _ (Nat.two_pow_pos _)
  rw [← exponent_eq_magnitude_div, ← exponent_eq_magnitude_div, hx] at hle
  exact Nat.le_antisymm (Nat.le_sub_one_of_lt hlt) hle

/-! ## quiet (R97) -/

theorem quieted_lt {w : NanWidth} {x : Nat} (h : x < 2 ^ (nanRow w).width) : quieted w x < 2 ^ (nanRow w).width := by
  obtain ⟨-, -, -, hmask, -⟩ := nanRow_layout w
  exact Nat.or_lt_two_pow h hmask

/-- Quieting sets the quiet bit, which makes the fraction nonzero, and keeps the exponent above it. -/
theorem quietPattern_quieted {w : NanWidth} {x : Nat} (h : ExponentOnes w x) : QuietPattern w (quieted w x) := by
  obtain ⟨-, hfrac, hmask, -, hbit⟩ := nanRow_layout w
  have hquiet : (quieted w x).testBit (nanRow w).quietBit = true := by simp [quieted, hbit]
  refine ⟨⟨?_, fun hzero => ?_⟩, ?_⟩
  · rw [quieted, Nat.or_div_two_pow, Nat.div_eq_of_lt hmask, Nat.or_zero]
    exact h
  · have hlow := Nat.testBit_mod_two_pow (quieted w x) (nanRow w).fracBits (nanRow w).quietBit
    simp [hzero, hfrac, hquiet] at hlow
  · simpa [Nat.testBit_eq_decide_div_mod_eq] using hquiet

/-- The ARM default NaNs are quiet. -/
theorem quietPattern_arm_table (w : NanWidth) : QuietPattern w (tableNaN .armDefaultNaN w) := by
  cases w <;> decide

/-! ## The selections on numbers -/

section
variable (w : NanWidth) (x y : Wide128)

theorem armPropagated_toNat : (armPropagated w x y).toNat =
    if SignalingPattern w x.toNat then quieted w x.toNat
    else if SignalingPattern w y.toNat then quieted w y.toNat
    else if NaNPattern w x.toNat then quieted w x.toNat
    else quieted w y.toNat := by
  simp only [armPropagated, ← isSNaN_iff, ← isNaN_iff]
  cases isSNaN w x <;> cases isSNaN w y <;> simp [apply_ite BitVec.toNat, apply_ite (quiet w), quiet_toNat]

theorem firstNaN_toNat : (firstNaN w x y).toNat =
    if NaNPattern w x.toNat then quieted w x.toNat else quieted w y.toNat := by
  simp only [firstNaN, isNaN_iff, apply_ite (quiet w), apply_ite BitVec.toNat, quiet_toNat]

theorem nanSign_true_iff : nanSign w x = true ↔ signOf w x.toNat = 1 := by
  rw [← Bool.not_eq_false, nanSign_false_iff]
  exact Nat.mod_two_ne_zero

theorem largerByMagnitude_toNat : (largerByMagnitude w x y).toNat =
    if magnitude w x.toNat < magnitude w y.toNat then quieted w y.toNat
    else if magnitude w y.toNat < magnitude w x.toNat then quieted w x.toNat
    else if signOf w x.toNat = 0 ∧ signOf w y.toNat = 1 then quieted w x.toNat
    else quieted w y.toNat := by
  simp only [largerByMagnitude, nanMag_eq, Bool.and_eq_true, Bool.not_eq_true', nanSign_false_iff,
    nanSign_true_iff, apply_ite BitVec.toNat, quiet_toNat]

theorem largerMagnitude_toNat : (largerMagnitude w x y).toNat = largerMag w x.toNat y.toNat := by
  simp only [largerMagnitude, largerMag, ← isSNaN_iff, ← isNaN_iff, ← largerByMagnitude_toNat]
  cases isSNaN w x <;> cases isSNaN w y <;> simp [apply_ite BitVec.toNat, quiet_toNat]

end

/-- The policies that select by LARGERMAG (R107). -/
theorem propagated_eq_largerMagnitude {p : Params} {policy : Policy} (w : NanWidth) (x y : Wide128)
    (h : policy = .x87 ∨ policy = .sse ∧ p.sseNanRule = .largerMagnitude) :
    propagated p policy w x y = largerMagnitude w x y := by
  obtain rfl | ⟨rfl, hrule⟩ := h
  · rfl
  · simp only [propagated, hrule]

/-- The policy that selects by FIRSTNAN (R108). -/
theorem propagated_eq_firstNaN {p : Params} {policy : Policy} (w : NanWidth) (x y : Wide128)
    (hsse : policy = .sse) (hrule : p.sseNanRule = .firstNaN) :
    propagated p policy w x y = firstNaN w x y := by
  simp only [propagated, hsse, hrule]

/-! ## Every selection quiets an operand -/

/-- r is one of x and y quieted, and the one quieted has an exponent of all ones if x or y is a NaN. -/
def QuietsAnOperand (w : NanWidth) (x y r : Nat) : Prop :=
  ∃ z, (z = x ∨ z = y) ∧ (NaNPattern w x ∨ NaNPattern w y → ExponentOnes w z) ∧ r = quieted w z

section
variable {w : NanWidth} {x y r : Nat}

theorem quietsAnOperand_left (h : NaNPattern w y → ExponentOnes w x) : QuietsAnOperand w x y (quieted w x) :=
  ⟨x, .inl rfl, fun hnan => hnan.elim exponentOnes_of_nan h, rfl⟩

theorem quietsAnOperand_right (h : NaNPattern w x → ExponentOnes w y) : QuietsAnOperand w x y (quieted w y) :=
  ⟨y, .inr rfl, fun hnan => hnan.elim h exponentOnes_of_nan, rfl⟩

theorem quietsAnOperand_left_of_nan (h : NaNPattern w x) : QuietsAnOperand w x y (quieted w x) :=
  quietsAnOperand_left fun _ => exponentOnes_of_nan h

theorem quietsAnOperand_right_of_nan (h : NaNPattern w y) : QuietsAnOperand w x y (quieted w y) :=
  quietsAnOperand_right fun _ => exponentOnes_of_nan h

theorem quietsAnOperand_first :
    QuietsAnOperand w x y (if NaNPattern w x then quieted w x else quieted w y) := by
  split_ifs with hx
  · exact quietsAnOperand_left_of_nan hx
  · exact quietsAnOperand_right fun h => absurd h hx

theorem quietsAnOperand_largerMag : QuietsAnOperand w x y (largerMag w x y) := by
  unfold largerMag
  split_ifs with hx hny hy hnx hlt hgt hsign
  · exact quietsAnOperand_right_of_nan hny
  · exact quietsAnOperand_left_of_nan (nan_of_signaling hx.1)
  · exact quietsAnOperand_left_of_nan hnx
  · exact quietsAnOperand_right_of_nan (nan_of_signaling hy.1)
  · exact quietsAnOperand_right fun h => (exponentOnes_of_nan h).of_magnitude_le hlt.le
  · exact quietsAnOperand_left fun h => (exponentOnes_of_nan h).of_magnitude_le hgt.le
  · exact quietsAnOperand_left fun h => (exponentOnes_of_nan h).of_magnitude_le (not_lt.mp hlt)
  · exact quietsAnOperand_right fun h => (exponentOnes_of_nan h).of_magnitude_le (not_lt.mp hgt)

theorem QuietsAnOperand.lt (h : QuietsAnOperand w x y r) (hx : x < 2 ^ (nanRow w).width)
    (hy : y < 2 ^ (nanRow w).width) : r < 2 ^ (nanRow w).width := by
  obtain ⟨z, rfl | rfl, -, rfl⟩ := h
  · exact quieted_lt hx
  · exact quieted_lt hy

theorem QuietsAnOperand.quiet (h : QuietsAnOperand w x y r) (hnan : NaNPattern w x ∨ NaNPattern w y) :
    QuietPattern w r := by
  obtain ⟨z, -, hones, rfl⟩ := h
  exact quietPattern_quieted (hones hnan)

end

theorem quietsAnOperand_armPropagated (w : NanWidth) (x y : Wide128) :
    QuietsAnOperand w x.toNat y.toNat (armPropagated w x y).toNat := by
  rw [armPropagated_toNat]
  split
  · next hx => exact quietsAnOperand_left_of_nan (nan_of_signaling hx)
  · split
    · next hy => exact quietsAnOperand_right_of_nan (nan_of_signaling hy)
    · exact quietsAnOperand_first

/-- A policy other than ARM-VFPv2-default-NaN quiets an operand. -/
theorem quietsAnOperand_propagated {policy : Policy} (h : policy ≠ .armDefaultNaN) (p : Params) (w : NanWidth)
    (x y : Wide128) : QuietsAnOperand w x.toNat y.toNat (propagated p policy w x y).toNat := by
  have hlarger : QuietsAnOperand w x.toNat y.toNat (largerMagnitude w x y).toNat := by
    rw [largerMagnitude_toNat]
    exact quietsAnOperand_largerMag
  cases policy with
  | armPropagate => exact quietsAnOperand_armPropagated w x y
  | armDefaultNaN => exact absurd rfl h
  | x87 => exact hlarger
  | sse =>
    cases hrule : p.sseNanRule with
    | largerMagnitude =>
      rw [propagated_eq_largerMagnitude w x y (.inr ⟨rfl, hrule⟩)]
      exact hlarger
    | firstNaN =>
      rw [propagated_eq_firstNaN w x y rfl hrule, firstNaN_toNat]
      exact quietsAnOperand_first

/-! ## LARGERMAG is symmetric (R107) -/

theorem eq_of_magnitude_of_signOf {w : NanWidth} {x y : Nat} (hx : x < 2 ^ (nanRow w).width)
    (hy : y < 2 ^ (nanRow w).width) (hmag : magnitude w x = magnitude w y) (hsign : signOf w x = signOf w y) :
    x = y := by
  cases w <;> simp only [magnitude, signOf, nanRow] at hx hy hmag hsign <;> omega

theorem signs_of_ne {w : NanWidth} {x y : Nat} (h : signOf w x ≠ signOf w y) :
    signOf w x = 0 ∧ signOf w y = 1 ∨ signOf w x = 1 ∧ signOf w y = 0 := by
  unfold signOf at h ⊢
  omega

section
variable {w : NanWidth} {x y : Wide128} (hx : x.toNat < 2 ^ (nanRow w).width) (hy : y.toNat < 2 ^ (nanRow w).width)
include hx hy

/-- On equal magnitudes the sign picks, and with equal signs too the operands are one. -/
theorem largerByMagnitude_comm : largerByMagnitude w x y = largerByMagnitude w y x := by
  apply BitVec.eq_of_toNat_eq
  rw [largerByMagnitude_toNat, largerByMagnitude_toNat]
  obtain hlt | heq | hgt := Nat.lt_trichotomy (magnitude w x.toNat) (magnitude w y.toNat)
  · simp [hlt, hlt.asymm]
  · by_cases hsign : signOf w x.toNat = signOf w y.toNat
    · rw [eq_of_magnitude_of_signOf hx hy heq hsign]
    · obtain ⟨hx0, hy1⟩ | ⟨hx1, hy0⟩ := signs_of_ne hsign
      · simp [heq, hx0, hy1]
      · simp [heq, hx1, hy0]
  · simp [hgt, hgt.asymm]

theorem largerMagnitude_comm : largerMagnitude w x y = largerMagnitude w y x := by
  unfold largerMagnitude
  cases isSNaN w x <;> cases isSNaN w y
  case false.false | true.true => exact largerByMagnitude_comm hx hy
  all_goals rfl

end

end Sys2Proof.Machine
end

section
/-!
The obligations about PROPNAN (44_policy R104 to R108): its FLAGS and R are those of `exec_propnan`, and R is read
off the selection of the policy.
-/

namespace Sys2Proof.Machine

open Sys2Proof.Safety

/-- The answer of PROPNAN; Invalid exactly when an operand is signaling (R104). -/
theorem exec_propnan (w : NanWidth) (s : State) : exec (.propnan w) s =
    .next
      { s with
        status := .ok, flags := flagsAfterPropnan w s
        r := zext (propagated s.params s.policy w (nanOperand w s.a) (nanOperand w s.b)) } := by
  simp only [exec, execPropnan, complete, State.raiseIf_eq, flagsAfterPropnan, Bool.or_eq_true, isSNaN_iff,
    nanOperand_toNat]
  rfl

/-- The answer with R as a number: n, if the policy selects z and z is n. -/
theorem exec_propnan_of_toNat {w : NanWidth} {s : State} {z : Wide128} {n : Nat}
    (hz : propagated s.params s.policy w (nanOperand w s.a) (nanOperand w s.b) = z) (hn : z.toNat = n) :
    exec (.propnan w) s =
      .next { s with status := .ok, flags := flagsAfterPropnan w s, r := BitVec.ofNat 256 n } := by
  rw [exec_propnan, hz, ← hn, ← zext_toNat z (by decide), BitVec.ofNat_toNat, BitVec.setWidth_eq]

/-- Settles O52: the default NaN is a quiet pattern, and any other policy quiets an operand
(`quietsAnOperand_propagated`). -/
theorem propagationRaisesInvalidForSignaling : Obligations.PropagationRaisesInvalidForSignaling := by
  refine ⟨fun w s => ⟨encodeSel_width_toNat .propnan w, _, exec_propnan w s, ?_⟩,
    fun sel h5 h8 => undecodable_of_maxSel_lt (o := .propnan) rfl h5 h8⟩
  rw [zext_toNat _ (by decide)]
  by_cases hpolicy : s.policy = .armDefaultNaN
  · rw [hpolicy, propagated]
    exact ⟨defaultNaN_lt .armDefaultNaN w s.params,
      fun harm _ => defaultNaN_of_arm_default w harm ▸ quietPattern_arm_table w⟩
  · have h := quietsAnOperand_propagated hpolicy s.params w (nanOperand w s.a) (nanOperand w s.b)
    rw [nanOperand_toNat, nanOperand_toNat] at h
    exact ⟨h.lt (nanBits_lt w s.a) (nanBits_lt w s.b), fun _ => h.quiet⟩

/-- Settles O53: the two ARM branches of `propagated`. -/
theorem armPropagationSelects : Obligations.ArmPropagationSelects := by
  intro w s x y
  refine ⟨fun hpolicy => ?_, fun hpolicy => ?_, defaultNaN_of_arm_default w⟩
  · refine exec_propnan_of_toNat (z := armPropagated w (nanOperand w s.a) (nanOperand w s.b)) ?_ ?_
    · rw [hpolicy, propagated]
    · rw [armPropagated_toNat, nanOperand_toNat, nanOperand_toNat]
  · rw [exec_propnan, hpolicy, propagated]
    rfl

/-- Settles O54: the x86 branches of `propagated`. -/
theorem x86PropagationSelects : Obligations.X86PropagationSelects := by
  intro w s x y
  refine ⟨fun hlarger => exec_propnan_of_toNat (propagated_eq_largerMagnitude w _ _ hlarger) ?_,
    fun hpolicy hrule => exec_propnan_of_toNat (propagated_eq_firstNaN w _ _ hpolicy hrule) ?_⟩
  · rw [largerMagnitude_toNat, nanOperand_toNat, nanOperand_toNat]
  · rw [firstNaN_toNat, nanOperand_toNat, nanOperand_toNat]

theorem flagsAfterPropnan_swap (w : NanWidth) (s : State) :
    flagsAfterPropnan w { s with a := s.b, b := s.a } = flagsAfterPropnan w s := by
  simp only [flagsAfterPropnan, or_comm]

/-- Settles O55: LARGERMAG is symmetric (`largerMagnitude_comm`), and so is "an operand is signaling". -/
theorem x87PropagationIsSymmetric : Obligations.X87PropagationIsSymmetric := by
  intro w s hpolicy
  refine ⟨_, exec_propnan w s, (exec_propnan w _).trans ?_⟩
  simp only [flagsAfterPropnan_swap, propagated_eq_largerMagnitude _ _ _ (.inl hpolicy),
    largerMagnitude_comm (nanOperand_lt w s.b) (nanOperand_lt w s.a)]

end Sys2Proof.Machine
end

section
/-!
The obligations about ExceptionState (45_flags R110 to R114): what RAISE, RESETF, RDFLAGS, WRRM and RDRM answer,
and the codes of the rounding modes as numbers (10_state R22).
-/

namespace Sys2Proof.Machine

open Sys2Proof.Safety

theorem roundingMode_code_toNat (m : RoundingMode) : m.code.toNat = modeNumber m := by
  cases m <;> rfl

theorem modeNumber_ne_reserved (m : RoundingMode) : modeNumber m ≠ 5 ∧ modeNumber m ≠ 7 := by
  cases m <;> decide

theorem encode_wrrm_toNat (m : RoundingMode) : (encode (.wrrm m)).toNat = 0x63 + 2 ^ 8 * modeNumber m := by
  simp [encode, packWord_toNat, roundingMode_code_toNat, Opcode.code]

/-- RAISE with a mask in range merges the mask's five bits into FLAGS (R110). -/
theorem exec_raise_of_le {n : BitVec 8} (h : n.toNat ≤ 31) (s : State) : exec (.raise n) s =
    .next { s with status := .ok, r := 0#256, flags := s.flags ||| n.extractLsb' 0 5 } :=
  whenLegal_of s _ h

/-- RDRM puts the code of RM on R, as a number (R114). -/
theorem rdrm_result_toNat (s : State) : (zext s.rm.code).toNat = modeNumber s.rm := by
  rw [zext_toNat _ (by decide), roundingMode_code_toNat]

/-- Settles O57: RAISE merges by OR, bit by bit, and an OR with one mask is idempotent. -/
theorem raiseMergesFlags : Obligations.RaiseMergesFlags := by
  intro n s
  refine ⟨encodeN_toNat .raise n, undecodable_of_maxN_lt (o := .raise) rfl,
    fun h => ⟨_, exec_raise_of_le h s, fun k hk => ?_, ?_⟩⟩
  · simp [hk]
  · rw [exec_raise_of_le h, BitVec.or_assoc, BitVec.or_self]

/-- Settles O58: RESETF writes no register but FLAGS, and RDFLAGS puts FLAGS on R and writes none. -/
theorem flagsReadAndReset : Obligations.FlagsReadAndReset :=
  fun s => ⟨rfl, rfl, ⟨_, rfl, rfl⟩, _, rfl, zext_toNat s.flags (by decide)⟩

/-- Settles O59: RDRM answers the code of RM, and no mode has the code 5 or 7. -/
theorem roundingModeWriteAndRead : Obligations.RoundingModeWriteAndRead := by
  refine ⟨fun m s => ⟨encode_wrrm_toNat m, rfl, ⟨_, _, rfl, rfl, rfl, ?_⟩, _, rfl, rdrm_result_toNat s, ?_⟩,
    ⟨.rmOutOfRange, rfl⟩, ⟨.rmOutOfRange, rfl⟩⟩
  · exact rdrm_result_toNat { s with status := .ok, r := 0#256, rm := m }
  · rw [rdrm_result_toNat]
    exact modeNumber_ne_reserved s.rm

end Sys2Proof.Machine
end

section
/-!
The obligations about steps and exceptions (60_exceptions): an idle or an ILLEGAL slot, the invariant of every
step, and the command behind each flag a step sets.
-/

namespace Sys2Proof.Machine

open Sys2Proof.Safety

/-! ## Commands end in a completion or a rejection (R115, R117) -/

/-- The outcome is a completion: R is written and STATUS is OK (00_scope R11). -/
def Completes (o : Result) : Prop := ∃ (s : State) (r : Bus), o = complete s r

theorem Completes.status {t : State} (h : Completes (.next t)) : t.status = .ok := by
  obtain ⟨s, r, ht⟩ := h
  rw [complete_next ht.symm]

theorem settleRounding_completes {w : Nat} (s : State) (ex : Bool) (sentinel : BitVec w) (q : Rounded w) :
    Completes (settleRounding s ex sentinel q) := by
  cases q <;> exact ⟨_, _, rfl⟩

theorem exec_completes {i : Instr} (hi : i.wf = true) (s : State) : Completes (exec i s) := by
  cases i
  case shl128 | shr128 | getw128 | setw128 | getw256 | setw256 | raise =>
    exact ⟨_, _, whenLegal_of s _ (of_decide_eq_true hi)⟩
  case rndu32 | rndi32 | rndu64 | rndi64 => exact settleRounding_completes s _ _ _
  all_goals exact ⟨_, _, rfl⟩

theorem issue_completes_or_rejects (s : State) : Completes (issue s) ∨ issue s = reject s := by
  unfold issue
  cases hd : decode s.cmd with
  | ok i =>
    obtain ⟨hwf, -⟩ := wf_and_encode_of_decode hd
    exact .inl (exec_completes hwf s)
  | error c => exact .inr rfl

theorem issue_of_not_legalWord {s : State} (h : ¬LegalWord s.cmd.toNat) : issue s = reject s := by
  rw [← exists_decode_iff_legalWord] at h
  unfold issue
  cases hd : decode s.cmd with
  | ok i => exact absurd ⟨i, hd⟩ h
  | error c => rfl

/-! ## The invariant -/

theorem issue_illegal_is_silent {s t : State} (h : issue s = .next t) (hill : t.status = .illegal) :
    t.r = 0#256 ∧ t.refusedMark = true := by
  obtain hc | hrej := issue_completes_or_rejects s
  · rw [h] at hc
    simp [hc.status] at hill
  · rw [hrej] at h
    rw [reject_next h]
    exact ⟨rfl, rfl⟩

theorem issue_rst {s t : State} (h : issue s = .next t) : t.rst = s.rst := by
  obtain ⟨r, st, f, m, k, heq⟩ := issue_effect s
  cases heq.symm.trans h
  rfl

theorem inv_resetAction (s : State) : Inv (resetAction s) where
  illegal_is_silent := nofun
  reset_is_held _ := ⟨rfl, rfl, policy_code_ofCode s.cfgPolicy, rfl, rfl⟩

theorem inv_of_rst_released {s : State} (hr : s.rst = false)
    (hill : s.status = .illegal → s.r = 0#256 ∧ s.refusedMark = true) : Inv s where
  illegal_is_silent := hill
  reset_is_held h := by simp [hr] at h

/-- A slot answers within the invariant if the last response, were it ILLEGAL, is silent and marked. An idle slot
keeps that response; reset and a command overwrite it. -/
theorem runSlot_inv {x : HostInput} {s t : State} (hr : s.rst = x.rst)
    (hill : s.status = .illegal → s.r = 0#256 ∧ s.refusedMark = true) (h : runSlot x s = .next t) : Inv t := by
  obtain ⟨-, hs⟩ | ⟨hx, -, hs⟩ | ⟨hx, -, hs⟩ := runSlot_cases x s <;> rw [hs] at h
  · cases h
    exact inv_resetAction s
  · cases h
    exact inv_of_rst_released (hr.trans hx) hill
  · exact inv_of_rst_released ((issue_rst h).trans (hr.trans hx)) (issue_illegal_is_silent h)

/-! ## Which command sets which flag (R116, R119) -/

/-- Bit `k` is clear in `f` and set in `f'`. -/
def NewlySet (k : Nat) (f f' : FlagSet) : Prop := f.getLsbD k = false ∧ f'.getLsbD k = true

/-- Why a command takes FLAGS from `f` to `f'` with bit `k` newly set. -/
inductive FlagSource (f f' : FlagSet) : Instr → Nat → Prop where
  /-- RAISE merges its mask (45_flags R110). -/
  | raise {n : BitVec 8} {k : Nat} (bit : n.getLsbD k = true) : FlagSource f f' (.raise n) k
  /-- PROPNAN met a signaling operand (44_policy R104). -/
  | signaling (w : NanWidth) : FlagSource f f' (.propnan w) 4
  /-- A rounding command took the invalid path (43_rounding R85). -/
  | invalid {i : Instr} (rounding : isRounding i = true) : FlagSource f f' i 4
  /-- A rounding command with EX = 1 discarded round bits (43_rounding R90). -/
  | inexact {i : Instr} (rounding : isRounding i = true) (no_invalid : f'.getLsbD 4 = f.getLsbD 4)
      (ex : ∃ m sg, i = .rndu32 m true sg ∨ i = .rndi32 m true sg ∨ i = .rndu64 m true sg ∨
        i = .rndi64 m true sg) : FlagSource f f' i 0

section
variable {k : Nat} {s t : State}

theorem NewlySet.merged {f m : FlagSet} (h : NewlySet k f (f ||| m)) : m.getLsbD k = true := by
  obtain ⟨hf, hor⟩ := h
  simpa [hf] using hor

theorem NewlySet.irrefl {f : FlagSet} : ¬NewlySet k f f := fun ⟨hf, ht⟩ => by simp [hf] at ht

theorem eq_four_of_flagInvalid (h : flagInvalid.getLsbD k = true) : k = 4 := by
  have hall : ∀ j < 5, flagInvalid.getLsbD j = true → j = 4 := by decide
  exact hall k (BitVec.lt_of_getLsbD h) h

theorem eq_zero_of_flagInexact (h : flagInexact.getLsbD k = true) : k = 0 := by
  have hall : ∀ j < 5, flagInexact.getLsbD j = true → j = 0 := by decide
  exact hall k (BitVec.lt_of_getLsbD h) h

theorem or_flagInexact_bit_four (f : FlagSet) : (f ||| flagInexact).getLsbD 4 = f.getLsbD 4 := by
  simp [flagInexact]

theorem complete_raiseIf_sets {c : Bool} {m : FlagSet} {r : Bus} (h : complete (s.raiseIf c m) r = .next t)
    (hk : NewlySet k s.flags t.flags) : c = true ∧ m.getLsbD k = true ∧ t.flags = s.flags ||| m := by
  cases complete_next h
  cases c
  · exact absurd hk NewlySet.irrefl
  · exact ⟨rfl, hk.merged, rfl⟩

theorem settleRounding_sets {w : Nat} {ex : Bool} {sentinel : BitVec w} {q : Rounded w}
    (h : settleRounding s ex sentinel q = .next t) (hk : NewlySet k s.flags t.flags) :
    k = 4 ∨ k = 0 ∧ ex = true ∧ t.flags.getLsbD 4 = s.flags.getLsbD 4 := by
  cases q with
  | invalid =>
    obtain ⟨-, hm, -⟩ := complete_raiseIf_sets (c := true) h hk
    exact .inl (eq_four_of_flagInvalid hm)
  | value z inexact =>
    obtain ⟨hc, hm, ht⟩ := complete_raiseIf_sets h hk
    rw [Bool.and_eq_true] at hc
    exact .inr ⟨eq_zero_of_flagInexact hm, hc.2, ht ▸ or_flagInexact_bit_four s.flags⟩

theorem exec_raise_sets {n : BitVec 8} (h : exec (.raise n) s = .next t) (hk : NewlySet k s.flags t.flags) :
    n.getLsbD k = true := by
  by_cases hn : n.toNat ≤ 31
  · cases (exec_raise_of_le hn s).symm.trans h
    have ⟨_, hbit⟩ : k < 5 ∧ n.getLsbD k = true := by simpa using hk.merged
    exact hbit
  · cases (whenLegal_of_not s _ hn).symm.trans h
    exact absurd hk NewlySet.irrefl

theorem exec_flagSource {i : Instr} (hi : mayRaise i = true) (h : exec i s = .next t)
    (hk : NewlySet k s.flags t.flags) : FlagSource s.flags t.flags i k := by
  cases i
  case raise n => exact .raise (exec_raise_sets h hk)
  case propnan w =>
    obtain ⟨-, hm, -⟩ := complete_raiseIf_sets h hk
    cases eq_four_of_flagInvalid hm
    exact .signaling w
  case rndu32 m ex sg | rndi32 m ex sg | rndu64 m ex sg | rndi64 m ex sg =>
    obtain rfl | ⟨rfl, rfl, h4⟩ := settleRounding_sets h hk
    · exact .invalid rfl
    · exact .inexact rfl h4 ⟨m, sg, by simp⟩
  all_goals cases hi

/-- A step that newly sets a bit executed a command that is the source of it. -/
theorem step_flagSource {x : HostInput} {rest : List HostInput} (hp : s.pending = x :: rest)
    (h : step s = .next t) (hk : NewlySet k s.flags t.flags) :
    ∃ i, executes x = some i ∧ FlagSource s.flags t.flags i k := by
  cases hc : clearsFlags x with
  | true =>
    obtain ⟨-, hset⟩ := hk
    simp [step_flags_of_clears hp h hc] at hset
  | false =>
    obtain ⟨m, hm, hmay⟩ := step_flags_of_not_clears hp h hc
    have hbit : m.getLsbD k = true := (hm ▸ hk).merged
    obtain ⟨i, hx, hi⟩ := hmay (by rintro rfl; simp at hbit)
    rw [step_of_executes hp hx] at h
    rw [← State.accept_flags s x rest] at hk ⊢
    exact ⟨i, hx, exec_flagSource hi h hk⟩

end

/-! ## The obligations -/

/-- Settles O12: the driven inputs keep the response, and a slot answers within the invariant (`runSlot_inv`). -/
theorem stepKeepsInvariant : Obligations.StepKeepsInvariant := by
  intro s t hinv h
  cases hp : s.pending with
  | nil =>
    rw [step_nil hp] at h
    cases h
    exact hinv
  | cons x rest =>
    rw [step_cons hp] at h
    exact runSlot_inv (State.accept_rst ..) (by simpa using hinv.illegal_is_silent) h

/-- Settles O6: a word outside the table decodes to nothing, so the slot is rejected. -/
theorem illegalCommandIsRejected : Obligations.IllegalCommandIsRejected := by
  intro s x rest q hp hr hq hlegal
  rw [step_of_request hp hr hq, issue_of_not_legalWord (by simpa [hq] using hlegal),
    State.accept_request s x rest q hq, hr]
  rfl

/-- Settles O11: every step answers, so every run does. -/
theorem noRunEverStops : Obligations.NoRunEverStops := run_total

/-- Settles O16: the sources of the bits 1 to 3, of bit 4 and of bit 0 (`step_flagSource`). -/
theorem eachFlagIsSetOnlyByItsCommands : Obligations.EachFlagIsSetOnlyByItsCommands := by
  intro s t x rest hp h
  refine ⟨fun k h0 h4 hs ht => ?_, fun hs ht => ?_, fun hs ht => ?_⟩ <;>
    obtain ⟨i, hx, hsource⟩ := step_flagSource hp h ⟨hs, ht⟩
  · cases hsource with
    | raise bit => exact ⟨_, hx, bit⟩
    | signaling | invalid => exact absurd h4 (by decide)
    | inexact => exact absurd h0 (by decide)
  · refine ⟨i, hx, ?_⟩
    cases hsource with
    | raise bit => exact .inl ⟨_, rfl, bit⟩
    | signaling w => exact .inr (.inr ⟨w, rfl⟩)
    | invalid rounding => exact .inr (.inl rounding)
  · refine ⟨i, hx, ?_⟩
    cases hsource with
    | raise bit => exact .inl ⟨_, rfl, bit⟩
    | inexact rounding no_invalid ex => exact .inr ⟨rounding, no_invalid, ex⟩

/-- Settles O10: with nothing pending there is no slot, and a slot without a command only drives its inputs. -/
theorem idleBlockHoldsItsState : Obligations.IdleBlockHoldsItsState := by
  refine ⟨fun s => step_nil, fun s x rest hp hr hq => ?_⟩
  rw [step_of_no_request hp hr hq, State.accept_idle s x rest hq, hr]

end Sys2Proof.Machine
end

section
/-!
The obligation about a slot with rst asserted (70_reset R127, R128). The step is the reset action on the driven
inputs, so what it writes does not depend on the slot's command.
-/

namespace Sys2Proof.Machine

/-- Settles O8: the registers and response ports are those of `resetAction`, which samples the driven strap;
the rest is what driving the inputs keeps. -/
theorem resetSlotPerformsTheResetAction : Obligations.ResetSlotPerformsTheResetAction := by
  intro s x rest hp hr
  have hpolicy : (resetAction (s.accept x rest)).policy.code = x.cfgPolicy := by
    rw [resetAction_policy, policy_code_ofCode, State.accept_cfgPolicy]
  exact ⟨resetAction (s.accept x rest), step_of_rst hp hr, rfl, rfl, hpolicy, rfl, rfl,
    State.accept_pending s x rest, State.accept_refusedMark s x rest, State.accept_params s x rest⟩

end Sys2Proof.Machine
end
